-- ==== Sys2Proof/Word.lean ====
section
/-! DEFINITION. The word types of the engine (spec/00_scope.md R7, spec/30_encoding.md R71). -/

namespace Sys2Proof

/-- A memory byte, a general register, a timer (R7). -/
abbrev Byte := BitVec 8

/-- An instruction word, the address register, the program counter, a stack entry (R7). -/
abbrev Word := BitVec 16

/-- A register index `x` or `y`, or the count `n` (R71). -/
abbrev Nibble := BitVec 4

/-- The address field `nnn` (R71). -/
abbrev Addr12 := BitVec 12

/-- The index of the flag register VF (`FLAG_REG` of R6). -/
abbrev vf : Nibble := 15#4

end Sys2Proof
end

