-- ==== Sys2Proof/Config.lean ====
section
/-! DEFINITION. The fixed sizes of the engine, the parameters the spec leaves OPEN (spec/00_scope.md R6)
and the free values that stand for the host's answers (R13). -/

namespace Sys2Proof

/-- `MEM_SIZE` (R6). -/
abbrev memSize : Nat := 4096

/-- `PROG_START` (R6). -/
abbrev progStart : Nat := 0x200

/-- `MAX_PROGRAM = MEM_SIZE - PROG_START` (R6). -/
abbrev maxProgram : Nat := 3584

/-- `STACK_CAP` (R6). -/
abbrev stackCap : Nat := 16

/-- `DISP_W` (R6). -/
abbrev dispW : Nat := 64

/-- `DISP_H` (R6). -/
abbrev dispH : Nat := 32

/-- `GLYPH_BYTES` (R6). -/
abbrev glyphBytes : Nat := 5

/-- `FONT_GLYPHS * GLYPH_BYTES` (R6). -/
abbrev fontLen : Nat := 80

/-- The parameters R6 marks OPEN: "a parameter the model takes as an argument". They are plain data carried in
`State.params`; no step changes them, so a statement about every state is about every choice of them (log entry 1).
`SYS_MODE` is not among them: it is `nop` here (R122, log entry 2). -/
structure Params where
  /-- `FONT_BASE`; its type is the constraint `FONT_BASE + 80 <= PROG_START` of R6. -/
  fontBase : Fin 433
  /-- `FONT_DATA` (R33). -/
  fontData : Vector Byte 80
  /-- `INSTR_PER_FRAME`, at least 1 (`Params.wf`). -/
  instrPerFrame : Nat
  /-- `HALT_ON_FAULT` (R223). -/
  haltOnFault : Bool
  deriving DecidableEq, Repr

/-- The constraint of R6 that the types do not carry: `INSTR_PER_FRAME >= 1`. -/
abbrev Params.wf (p : Params) : Prop := 1 ≤ p.instrPerFrame

namespace Config

/-- Glyphs 0 to 7 of the conventional font (R33). -/
def fontLow : List Byte :=
  [0xF0, 0x90, 0x90, 0x90, 0xF0, 0x20, 0x60, 0x20, 0x20, 0x70,
   0xF0, 0x10, 0xF0, 0x80, 0xF0, 0xF0, 0x10, 0xF0, 0x10, 0xF0,
   0x90, 0x90, 0xF0, 0x10, 0x10, 0xF0, 0x80, 0xF0, 0x10, 0xF0,
   0xF0, 0x80, 0xF0, 0x90, 0xF0, 0xF0, 0x10, 0x20, 0x40, 0x40]

/-- Glyphs 8 to F of the conventional font (R33). -/
def fontHigh : List Byte :=
  [0xF0, 0x90, 0xF0, 0x90, 0xF0, 0xF0, 0x90, 0xF0, 0x10, 0xF0,
   0xF0, 0x90, 0xF0, 0x90, 0x90, 0xE0, 0x90, 0xE0, 0x90, 0xE0,
   0xF0, 0x80, 0x80, 0x80, 0xF0, 0xE0, 0x90, 0x90, 0x90, 0xE0,
   0xF0, 0x80, 0xF0, 0x80, 0xF0, 0xF0, 0x80, 0xF0, 0x80, 0x80]

/-- The spec's default `FONT_DATA`, the conventional CHIP-8 font (R33, D12). -/
def defaultFont : Vector Byte 80 := ⟨(fontLow ++ fontHigh).toArray, rfl⟩

/-- The values the test vectors use and the source's stated defaults (R6, spec/95_test_vectors.md part 0).
DESIGN CHOICE (log entry 1), unsafe: a claim about `State.reset` alone leans on them. -/
def defaultParams : Params :=
  { fontBase := 0, fontData := defaultFont, instrPerFrame := 12, haltOnFault := false }

/-- FREE VALUE: the byte the n-th execution of RND draws, `draw_random()` of R153 (U4, D16; log entry 3). -/
opaque randomByte : Nat → Byte

/-- FREE VALUE: the n-th answer of `waitForKeyRelease`, `draw_key_release()` of R196: none, or a key 0..15
(U5, D15; log entry 4). -/
opaque keyRelease : Nat → Option Nibble

/-- FREE VALUE: the n-th answer of `pollBitmask` (R244, U6; log entry 5). -/
opaque pollBitmask : Nat → BitVec 16

/-- FREE VALUE: the n-th answer of `shouldClose` (R243, U7; log entry 6). -/
opaque shouldClose : Nat → Bool

end Config

end Sys2Proof
end

