-- ==== Sys2Proof/Syntax.lean ====
section
/-! DEFINITION. The 35 instructions of spec/30_encoding.md R74, one constructor per row of the opcode table,
in the table's order. A field has the width R71 gives it. -/

namespace Sys2Proof

/-- An instruction with its operand fields. -/
inductive Instr where
  /-- Row 1, `00E0` `CLS` (R190). -/
  | cls
  /-- Row 2, `00EE` `RET` (R123). -/
  | ret
  /-- Row 3, `0nnn` `SYS nnn` (R122). -/
  | sys (nnn : Addr12)
  /-- Row 4, `1nnn` `JP nnn` (R124). -/
  | jp (nnn : Addr12)
  /-- Row 5, `2nnn` `CALL nnn` (R125). -/
  | call (nnn : Addr12)
  /-- Row 6, `3xkk` `SE Vx, kk` (R127). -/
  | seImm (x : Nibble) (kk : Byte)
  /-- Row 7, `4xkk` `SNE Vx, kk` (R128). -/
  | sneImm (x : Nibble) (kk : Byte)
  /-- Row 8, `5xy0` `SE Vx, Vy` (R129). -/
  | seReg (x y : Nibble)
  /-- Row 9, `6xkk` `LD Vx, kk` (R141). -/
  | ldImm (x : Nibble) (kk : Byte)
  /-- Row 10, `7xkk` `ADD Vx, kk` (R142). -/
  | addImm (x : Nibble) (kk : Byte)
  /-- Row 11, `8xy0` `LD Vx, Vy` (R143). -/
  | ldReg (x y : Nibble)
  /-- Row 12, `8xy1` `OR Vx, Vy` (R145). -/
  | orReg (x y : Nibble)
  /-- Row 13, `8xy2` `AND Vx, Vy` (R146). -/
  | andReg (x y : Nibble)
  /-- Row 14, `8xy3` `XOR Vx, Vy` (R147). -/
  | xorReg (x y : Nibble)
  /-- Row 15, `8xy4` `ADD Vx, Vy` (R148). -/
  | addReg (x y : Nibble)
  /-- Row 16, `8xy5` `SUB Vx, Vy` (R149). -/
  | sub (x y : Nibble)
  /-- Row 17, `8xy6` `SHR Vx, Vy` (R151). -/
  | shr (x y : Nibble)
  /-- Row 18, `8xy7` `SUBN Vx, Vy` (R150). -/
  | subn (x y : Nibble)
  /-- Row 19, `8xyE` `SHL Vx, Vy` (R152). -/
  | shl (x y : Nibble)
  /-- Row 20, `9xy0` `SNE Vx, Vy` (R130). -/
  | sneReg (x y : Nibble)
  /-- Row 21, `Annn` `LD I, nnn` (R170). -/
  | ldI (nnn : Addr12)
  /-- Row 22, `Bnnn` `JP V0, nnn` (R126). -/
  | jpV0 (nnn : Addr12)
  /-- Row 23, `Cxkk` `RND Vx, kk` (R154). -/
  | rnd (x : Nibble) (kk : Byte)
  /-- Row 24, `Dxyn` `DRW Vx, Vy, n` (R191). -/
  | drw (x y n : Nibble)
  /-- Row 25, `Ex9E` `SKP Vx` (R193). -/
  | skp (x : Nibble)
  /-- Row 26, `ExA1` `SKNP Vx` (R194). -/
  | sknp (x : Nibble)
  /-- Row 27, `Fx07` `LD Vx, DT` (R195). -/
  | ldVxDt (x : Nibble)
  /-- Row 28, `Fx0A` `LD Vx, K` (R197). -/
  | ldVxK (x : Nibble)
  /-- Row 29, `Fx15` `LD DT, Vx` (R198). -/
  | ldDtVx (x : Nibble)
  /-- Row 30, `Fx18` `LD ST, Vx` (R199). -/
  | ldStVx (x : Nibble)
  /-- Row 31, `Fx1E` `ADD I, Vx` (R171). -/
  | addI (x : Nibble)
  /-- Row 32, `Fx29` `LD F, Vx` (R172). -/
  | ldF (x : Nibble)
  /-- Row 33, `Fx33` `LD B, Vx` (R173). -/
  | ldB (x : Nibble)
  /-- Row 34, `Fx55` `LD [I], Vx`, the block store (R174). -/
  | ldStore (x : Nibble)
  /-- Row 35, `Fx65` `LD Vx, [I]`, the block load (R175). -/
  | ldLoad (x : Nibble)
  deriving DecidableEq, Repr

end Sys2Proof
end

