-- ==== Sys2Proof/WellFormed.lean ====
section
/-! DEFINITION. Which instructions have an encoding (spec/30_encoding.md R79). -/

namespace Sys2Proof

/-- R79: operand fields take every value, "with one exception: `SYS nnn` does not take nnn = 0x0E0 or 0x0EE".
Every other bound of R72 is the width of the field's type. -/
def Instr.wf : Instr → Bool
  | .sys nnn => nnn != 0x0E0#12 && nnn != 0x0EE#12
  | _ => true

end Sys2Proof
end

