-- ==== Sys2Proof/Decode.lean ====
section
/-! DEFINITION. The decoder in both forms the spec gives (spec/30_encoding.md R76, R77), and the encoder (R90). -/

namespace Sys2Proof

/-- Why bytes give no instruction. `unknownOpcode`: no row matches (R80). `truncated`: fewer than the two bytes of
an instruction (R70). -/
inductive DecodeError where
  | unknownOpcode (w : Word)
  | truncated
  deriving DecidableEq, Repr

/-- `op = w[15:12]` (R71). -/
def opField (w : Word) : Nibble := w.extractLsb' 12 4

/-- `x = w[11:8]` (R71). -/
def xField (w : Word) : Nibble := w.extractLsb' 8 4

/-- `y = w[7:4]` (R71). -/
def yField (w : Word) : Nibble := w.extractLsb' 4 4

/-- `n = w[3:0]` (R71). -/
def nField (w : Word) : Nibble := w.extractLsb' 0 4

/-- `kk = w[7:0]` (R71). -/
def kkField (w : Word) : Byte := w.extractLsb' 0 8

/-- `nnn = w[11:0]` (R71). -/
def nnnField (w : Word) : Addr12 := w.extractLsb' 0 12

/-- The big-endian word of two bytes, `M[a] * 256 + M[a+1]` (R50). -/
def wordOfBytes (hi lo : Byte) : Word := BitVec.ofNat 16 (hi.toNat * 256 + lo.toNat)

/-- The two bytes of a word, the high one at the lower address (R50). -/
def bytesOfWord (w : Word) : List Byte := [w.extractLsb' 8 8, w.extractLsb' 0 8]

/-- The `0x0` arm of R77: the literals before the catch-all. -/
def decodeGroup0 (w : Word) : Instr :=
  if w = 0x00E0#16 then .cls else if w = 0x00EE#16 then .ret else .sys (nnnField w)

/-- The `0x8` arm of R77. -/
def decodeGroup8 (w : Word) : Option Instr :=
  let x := xField w
  let y := yField w
  match nField w with
  | 0x0#4 => some (.ldReg x y)
  | 0x1#4 => some (.orReg x y)
  | 0x2#4 => some (.andReg x y)
  | 0x3#4 => some (.xorReg x y)
  | 0x4#4 => some (.addReg x y)
  | 0x5#4 => some (.sub x y)
  | 0x6#4 => some (.shr x y)
  | 0x7#4 => some (.subn x y)
  | 0xE#4 => some (.shl x y)
  | _ => none

/-- The `0xE` arm of R77. -/
def decodeGroupE (w : Word) : Option Instr :=
  let x := xField w
  match kkField w with
  | 0x9E#8 => some (.skp x)
  | 0xA1#8 => some (.sknp x)
  | _ => none

/-- The `0xF` arm of R77. -/
def decodeGroupF (w : Word) : Option Instr :=
  let x := xField w
  match kkField w with
  | 0x07#8 => some (.ldVxDt x)
  | 0x0A#8 => some (.ldVxK x)
  | 0x15#8 => some (.ldDtVx x)
  | 0x18#8 => some (.ldStVx x)
  | 0x1E#8 => some (.addI x)
  | 0x29#8 => some (.ldF x)
  | 0x33#8 => some (.ldB x)
  | 0x55#8 => some (.ldStore x)
  | 0x65#8 => some (.ldLoad x)
  | _ => none

/-- Decode by direct dispatch (R77); `none` is `UnknownOpcode`. -/
def decodeDirect (w : Word) : Option Instr :=
  match opField w with
  | 0x0#4 => some (decodeGroup0 w)
  | 0x1#4 => some (.jp (nnnField w))
  | 0x2#4 => some (.call (nnnField w))
  | 0x3#4 => some (.seImm (xField w) (kkField w))
  | 0x4#4 => some (.sneImm (xField w) (kkField w))
  | 0x5#4 => if nField w = 0#4 then some (.seReg (xField w) (yField w)) else none
  | 0x6#4 => some (.ldImm (xField w) (kkField w))
  | 0x7#4 => some (.addImm (xField w) (kkField w))
  | 0x8#4 => decodeGroup8 w
  | 0x9#4 => if nField w = 0#4 then some (.sneReg (xField w) (yField w)) else none
  | 0xA#4 => some (.ldI (nnnField w))
  | 0xB#4 => some (.jpV0 (nnnField w))
  | 0xC#4 => some (.rnd (xField w) (kkField w))
  | 0xD#4 => some (.drw (xField w) (yField w) (nField w))
  | 0xE#4 => decodeGroupE w
  | _ => decodeGroupF w

/-- A row of the opcode table (R74): a word `w` matches when `(w & mask) = pattern`, and `instr` reads its fields. -/
structure OpcodeRow where
  mask : Word
  pattern : Word
  instr : Word → Instr

/-- Whether a word matches a row (R74). -/
def OpcodeRow.accepts (r : OpcodeRow) (w : Word) : Bool := (w &&& r.mask) == r.pattern

/-- Rows 1 to 11 of R74. -/
def opcodeRowsA : List OpcodeRow :=
  [⟨0xFFFF, 0x00E0, fun _ => .cls⟩,
   ⟨0xFFFF, 0x00EE, fun _ => .ret⟩,
   ⟨0xF000, 0x0000, fun w => .sys (nnnField w)⟩,
   ⟨0xF000, 0x1000, fun w => .jp (nnnField w)⟩,
   ⟨0xF000, 0x2000, fun w => .call (nnnField w)⟩,
   ⟨0xF000, 0x3000, fun w => .seImm (xField w) (kkField w)⟩,
   ⟨0xF000, 0x4000, fun w => .sneImm (xField w) (kkField w)⟩,
   ⟨0xF00F, 0x5000, fun w => .seReg (xField w) (yField w)⟩,
   ⟨0xF000, 0x6000, fun w => .ldImm (xField w) (kkField w)⟩,
   ⟨0xF000, 0x7000, fun w => .addImm (xField w) (kkField w)⟩,
   ⟨0xF00F, 0x8000, fun w => .ldReg (xField w) (yField w)⟩]

/-- Rows 12 to 20 of R74. -/
def opcodeRowsB : List OpcodeRow :=
  [⟨0xF00F, 0x8001, fun w => .orReg (xField w) (yField w)⟩,
   ⟨0xF00F, 0x8002, fun w => .andReg (xField w) (yField w)⟩,
   ⟨0xF00F, 0x8003, fun w => .xorReg (xField w) (yField w)⟩,
   ⟨0xF00F, 0x8004, fun w => .addReg (xField w) (yField w)⟩,
   ⟨0xF00F, 0x8005, fun w => .sub (xField w) (yField w)⟩,
   ⟨0xF00F, 0x8006, fun w => .shr (xField w) (yField w)⟩,
   ⟨0xF00F, 0x8007, fun w => .subn (xField w) (yField w)⟩,
   ⟨0xF00F, 0x800E, fun w => .shl (xField w) (yField w)⟩,
   ⟨0xF00F, 0x9000, fun w => .sneReg (xField w) (yField w)⟩]

/-- Rows 21 to 35 of R74. -/
def opcodeRowsC : List OpcodeRow :=
  [⟨0xF000, 0xA000, fun w => .ldI (nnnField w)⟩,
   ⟨0xF000, 0xB000, fun w => .jpV0 (nnnField w)⟩,
   ⟨0xF000, 0xC000, fun w => .rnd (xField w) (kkField w)⟩,
   ⟨0xF000, 0xD000, fun w => .drw (xField w) (yField w) (nField w)⟩,
   ⟨0xF0FF, 0xE09E, fun w => .skp (xField w)⟩,
   ⟨0xF0FF, 0xE0A1, fun w => .sknp (xField w)⟩,
   ⟨0xF0FF, 0xF007, fun w => .ldVxDt (xField w)⟩,
   ⟨0xF0FF, 0xF00A, fun w => .ldVxK (xField w)⟩,
   ⟨0xF0FF, 0xF015, fun w => .ldDtVx (xField w)⟩,
   ⟨0xF0FF, 0xF018, fun w => .ldStVx (xField w)⟩,
   ⟨0xF0FF, 0xF01E, fun w => .addI (xField w)⟩,
   ⟨0xF0FF, 0xF029, fun w => .ldF (xField w)⟩,
   ⟨0xF0FF, 0xF033, fun w => .ldB (xField w)⟩,
   ⟨0xF0FF, 0xF055, fun w => .ldStore (xField w)⟩,
   ⟨0xF0FF, 0xF065, fun w => .ldLoad (xField w)⟩]

/-- The opcode table in priority order (R74, R76). -/
def opcodeTable : List OpcodeRow := opcodeRowsA ++ opcodeRowsB ++ opcodeRowsC

/-- Decode by table scan (R76): the first row whose masked bits match. -/
def decodeScan (w : Word) : Option Instr := (opcodeTable.find? (·.accepts w)).map (·.instr w)

/-- The decoder the engine runs: the direct dispatch, rejecting by name (R103). -/
def decodeWord (w : Word) : Except DecodeError Instr :=
  match decodeDirect w with
  | some i => .ok i
  | none => .error (.unknownOpcode w)

/-- Decode the instruction at the head of a byte sequence, with the rest (R50, R70). -/
def decode : List Byte → Except DecodeError (Instr × List Byte)
  | hi :: lo :: rest => (decodeWord (wordOfBytes hi lo)).map (·, rest)
  | _ => .error .truncated

/-- A word with `nnn` in place (R71). -/
def formA (pattern : Word) (nnn : Addr12) : Word := pattern ||| nnn.setWidth 16

/-- A word with `x` and `kk` in place (R71, R73). -/
def formXK (pattern : Word) (x : Nibble) (kk : Byte) : Word :=
  pattern ||| (x.setWidth 16 <<< 8) ||| kk.setWidth 16

/-- A word with `x`, `y` and `n` in place (R71, R73). -/
def formXYN (pattern : Word) (x y n : Nibble) : Word :=
  pattern ||| (x.setWidth 16 <<< 8) ||| (y.setWidth 16 <<< 4) ||| n.setWidth 16

/-- A word with `x` and `y` in place (R71, R73). -/
def formXY (pattern : Word) (x y : Nibble) : Word := formXYN pattern x y 0

/-- A word with `x` in place (R71, R73). -/
def formX (pattern : Word) (x : Nibble) : Word := formXYN pattern x 0 0

/-- The word of an instruction: its row's match with the operand fields placed (R71, R74, R90). -/
def encode : Instr → Word
  | .cls => 0x00E0
  | .ret => 0x00EE
  | .sys nnn => formA 0x0000 nnn
  | .jp nnn => formA 0x1000 nnn
  | .call nnn => formA 0x2000 nnn
  | .seImm x kk => formXK 0x3000 x kk
  | .sneImm x kk => formXK 0x4000 x kk
  | .seReg x y => formXY 0x5000 x y
  | .ldImm x kk => formXK 0x6000 x kk
  | .addImm x kk => formXK 0x7000 x kk
  | .ldReg x y => formXY 0x8000 x y
  | .orReg x y => formXY 0x8001 x y
  | .andReg x y => formXY 0x8002 x y
  | .xorReg x y => formXY 0x8003 x y
  | .addReg x y => formXY 0x8004 x y
  | .sub x y => formXY 0x8005 x y
  | .shr x y => formXY 0x8006 x y
  | .subn x y => formXY 0x8007 x y
  | .shl x y => formXY 0x800E x y
  | .sneReg x y => formXY 0x9000 x y
  | .ldI nnn => formA 0xA000 nnn
  | .jpV0 nnn => formA 0xB000 nnn
  | .rnd x kk => formXK 0xC000 x kk
  | .drw x y n => formXYN 0xD000 x y n
  | .skp x => formX 0xE09E x
  | .sknp x => formX 0xE0A1 x
  | .ldVxDt x => formX 0xF007 x
  | .ldVxK x => formX 0xF00A x
  | .ldDtVx x => formX 0xF015 x
  | .ldStVx x => formX 0xF018 x
  | .addI x => formX 0xF01E x
  | .ldF x => formX 0xF029 x
  | .ldB x => formX 0xF033 x
  | .ldStore x => formX 0xF055 x
  | .ldLoad x => formX 0xF065 x

/-- The word of an instruction of the opcode table's numbering; bits at and above `nbits` are 0. -/
def tableWord (nbits w : Nat) : Word := BitVec.ofNat 16 (w % 2 ^ nbits)

/-- The instruction the decoder reads from the bytes of a table word, laid out big-endian (R50). -/
def decodeTableWord (nbits w : Nat) : Option Instr :=
  match decode (bytesOfWord (tableWord nbits w)) with
  | .ok (i, _) => some i
  | .error _ => none

end Sys2Proof
end

