-- ==== Sys2Proof/Machine/State.lean ====
section
/-! DEFINITION. The state of the engine (spec/10_state.md), the failure kinds and records
(spec/60_exceptions.md R220, R221), and the state right after reset (spec/10_state.md R42). -/

namespace Sys2Proof.Machine

/-- The stops of a step. No instruction raises one: every failure the spec describes is a next state (R222, R224). -/
inductive Fault where
  /-- `run = Halted`: "the engine has no further step" (R108). Raised by `step` only. Safe: the machine stops. -/
  | halted
  /-- The run ended normally at a close request (R109). Raised by `step` only. Safe: the machine stops. -/
  | runEnded
  /-- The load failed, so startup was aborted and "no frame runs after it" (R225). Raised by `step` only. Safe. -/
  | startupAborted
  deriving DecidableEq, Repr

/-- The refusals. No arm of `exec` uses one: all 35 instructions have their meaning. -/
inductive Refusal where
  /-- An instruction with no meaning yet, by its mnemonic. Raised by `exec` only. Safe: the machine stops. -/
  | notModelled (mnemonic : String)
  deriving DecidableEq, Repr

/-- What a step or an instruction answers. -/
abbrev Result (σ : Type) := Host.Outcome σ Fault Refusal

/-- `Running` or `Halted` (R38). -/
inductive RunState where
  | running
  | halted
  deriving DecidableEq, Repr

/-- Where the execution loop stands: the next event of the frame (R107). Model's own bookkeeping (log entry 7). -/
inductive LoopPos where
  /-- Step 1: the keyboard snapshot. -/
  | snapshot
  /-- Step 2: a cycle while `slot < INSTR_PER_FRAME`, else step 3, the timer tick. -/
  | batch
  /-- Step 4: presentation. -/
  | present
  /-- Step 5: the close check. -/
  | close
  /-- The run has ended normally (R109). -/
  | ended
  /-- The load failed (R225). -/
  | aborted
  deriving DecidableEq, Repr

/-- A failure: its kind with the info column of R220. -/
inductive Failure where
  | unknownOpcode
  | addressOutOfRange (target : Nat)
  | stackOverflow
  | stackUnderflow
  | fetchOutOfRange
  | memoryOutOfRange (start count : Nat)
  | programTooLarge (length : Nat)
  deriving DecidableEq, Repr

/-- The class column of R220. -/
inductive FailureClass where
  | instructionLevel
  | fatal
  | loadTime
  deriving DecidableEq, Repr

/-- A fault record `(code, kind, pc0, word, info)` (R221): kind and info are the `Failure`, the code is read from it
(`Failure.code`). `word` is absent for FetchOutOfRange; both addresses are absent for ProgramTooLarge. -/
structure FaultRecord where
  failure : Failure
  pc0 : Option Word
  word : Option Word
  deriving DecidableEq, Repr

/-- The display grid: `D[x][y]`, 64 columns of 32 pixels (R34). -/
abbrev Grid := Vector (Vector Bool 32) 64

/-- The state of the engine. -/
structure State where
  /-- The OPEN parameters (R6); no step changes them (log entry 1). -/
  params : Params
  /-- `V[0]..V[15]` (R20). -/
  v : Vector Byte 16
  /-- The address register `I` (R23). -/
  iReg : Word
  /-- The program counter `PC` (R24). -/
  pc : Word
  /-- The delay timer `DT` (R27). -/
  dt : Byte
  /-- The sound timer `ST` (R27). -/
  st : Byte
  /-- The call stack `S`, oldest entry first (R28, R29). -/
  stack : List Word
  /-- Memory `M` (R31): the bytes that differ from their construction contents, by rising address (`Memory.wf`). -/
  mem : List Host.Cell
  /-- The display grid `D` (R34). -/
  display : Grid
  /-- `kbd_mask` (R36). -/
  kbdMask : BitVec 16
  /-- `run` (R38). -/
  run : RunState
  /-- The fault log, oldest record first (R39). -/
  faults : List FaultRecord
  /-- Cycles already executed in the current frame (R41). -/
  slot : Nat
  /-- Model's own: the next event of the execution loop (R107, log entry 7). -/
  loop : LoopPos
  /-- Model's own: random bytes drawn so far; `Config.randomByte` at it is the next draw (log entry 3). -/
  rndDraws : Nat
  /-- Model's own: key-release queries so far (log entry 4). -/
  keyDraws : Nat
  /-- Model's own: keyboard polls so far (log entry 5). -/
  pollDraws : Nat
  /-- Model's own: close queries so far (log entry 6). -/
  closeDraws : Nat
  /-- Model's own: `beep()` calls so far, an output (R246, log entry 9). -/
  beeps : Nat
  /-- Model's own: `present()` calls so far, an output (R243, log entry 9). -/
  presents : Nat
  deriving DecidableEq, Repr

/-- The state right after Reset on a constructed engine with the font installed (R42), for any parameters. The
model's own fields start at 0 and at the first event of a frame (DESIGN CHOICE, log entries 3 to 9). -/
def State.resetWith (p : Params) : State :=
  { params := p
    v := Vector.replicate 16 0
    iReg := 0
    pc := 0x200
    dt := 0
    st := 0
    stack := []
    mem := []
    display := Vector.replicate 64 (Vector.replicate 32 false)
    kbdMask := 0
    run := .running
    faults := []
    slot := 0
    loop := .snapshot
    rndDraws := 0
    keyDraws := 0
    pollDraws := 0
    closeDraws := 0
    beeps := 0
    presents := 0 }

/-- The state right after reset, at the parameters of spec/95_test_vectors.md part 0 (log entry 1). -/
def State.reset : State := State.resetWith Config.defaultParams

end Sys2Proof.Machine
end

