-- ==== Sys2Proof/Machine/Grid.lean ====
section
/-! DEFINITION. The display grid and its interface (spec/60_exceptions.md R241, R242), and the sprite blit built on
it (spec/44_display_input_timers.md R191). -/

namespace Sys2Proof.Machine

/-- `D[x][y]`; a place outside the grid reads unset. -/
def Grid.pixel (d : Grid) (px py : Nat) : Bool :=
  if h : px < 64 ∧ py < 32 then (d[px]'h.1)[py]'h.2 else false

/-- `putPixel(x, y)`: toggle the pixel and answer whether it became unset; out-of-range coordinates do nothing and
answer false (R241). -/
def Grid.putPixel (d : Grid) (px py : Nat) : Grid × Bool :=
  if h : px < dispW ∧ py < dispH then
    let col := d[px]'h.1
    let old := col[py]'h.2
    (d.set px (col.set py (!old) h.2) h.1, old)
  else (d, false)

/-- `clear()`: every pixel unset (R242). -/
def Grid.clear : Grid := Vector.replicate 64 (Vector.replicate 32 false)

/-- The columns of one sprite row: bit `7 - col` of the byte is column `col` (R191, D13); the flag is the collision
accumulated so far. -/
def Grid.drawCols (byte : Byte) (x0 py : Nat) : List Nat → Grid × Bool → Grid × Bool
  | [], acc => acc
  | col :: cols, (d, hit) =>
    if byte.getLsbD (7 - col) then
      let r := Grid.putPixel d (x0 + col) py
      Grid.drawCols byte x0 py cols (r.1, hit || r.2)
    else Grid.drawCols byte x0 py cols (d, hit)

/-- The rows of a sprite, from row `py` down (R191). -/
def Grid.drawRows (x0 : Nat) : Nat → List Byte → Grid × Bool → Grid × Bool
  | _, [], acc => acc
  | py, byte :: rows, acc =>
    Grid.drawRows x0 (py + 1) rows (Grid.drawCols byte x0 py [0, 1, 2, 3, 4, 5, 6, 7] acc)

/-- The whole blit at an anchor: the new grid and the collision (R191). -/
def Grid.blit (d : Grid) (x0 y0 : Nat) (sprite : List Byte) : Grid × Bool :=
  Grid.drawRows x0 y0 sprite (d, false)

end Sys2Proof.Machine
end

