-- ==== Sys2Proof/Machine/Memory.lean ====
section
/-! DEFINITION. Memory as a canonical list of cells (spec/10_state.md R31 to R33, spec/20_memory.md R54 to R56). -/

namespace Sys2Proof.Machine

/-- What an unlisted address reads as: the contents after construction and font install, `FONT_DATA` at
`FONT_BASE ..` and 0 elsewhere (R42, R260, R261; log entry 10). -/
def Memory.initial (p : Params) (a : Nat) : Byte :=
  if h : p.fontBase.val ≤ a ∧ a < p.fontBase.val + fontLen then
    p.fontData[a - p.fontBase.val]'(by simp only [fontLen] at h; omega)
  else 0

/-- The listed byte at an address. -/
def Memory.lookup : List Host.Cell → Nat → Option Byte
  | [], _ => none
  | (k, b) :: m, a => if k = a then some b else Memory.lookup m a

/-- `M[a]`. -/
def Memory.read (p : Params) (m : List Host.Cell) (a : Nat) : Byte :=
  (Memory.lookup m a).getD (Memory.initial p a)

/-- List a byte, in address order. -/
def Memory.insert : List Host.Cell → Nat → Byte → List Host.Cell
  | [], a, b => [(a, b)]
  | (k, c) :: m, a, b =>
    if a < k then (a, b) :: (k, c) :: m
    else if a = k then (a, b) :: m
    else (k, c) :: Memory.insert m a b

/-- Unlist an address. -/
def Memory.erase : List Host.Cell → Nat → List Host.Cell
  | [], _ => []
  | (k, c) :: m, a => if k = a then Memory.erase m a else (k, c) :: Memory.erase m a

/-- `M[a] <- b`: a byte equal to the unlisted one is unlisted, so that equal memories are equal lists. -/
def Memory.write (p : Params) (m : List Host.Cell) (a : Nat) (b : Byte) : List Host.Cell :=
  if b = Memory.initial p a then Memory.erase m a else Memory.insert m a b

/-- `M[a+j] <- bytes[j]` for each j in turn (R56). -/
def Memory.writeList (p : Params) (m : List Host.Cell) (a : Nat) : List Byte → List Host.Cell
  | [] => m
  | b :: bs => Memory.writeList p (Memory.write p m a b) (a + 1) bs

/-- Addresses strictly rising. -/
def Memory.rising : List Host.Cell → Bool
  | [] => true
  | [_] => true
  | (a, _) :: (b, c) :: m => decide (a < b) && Memory.rising ((b, c) :: m)

/-- The canonical form: addresses strictly rising and below `MEM_SIZE`, no entry equal to what an unlisted address
reads as. -/
def Memory.wf (p : Params) (m : List Host.Cell) : Bool :=
  Memory.rising m && m.all fun c => decide (c.1 < memSize) && c.2 != Memory.initial p c.1

end Sys2Proof.Machine
end

