-- ==== Sys2Proof/Machine/Ops.lean ====
section
/-! DEFINITION. The named operations on the state: registers, memory, stack, program counter, draws, and the one
operation that takes a failure (spec/60_exceptions.md R222 to R224). -/

namespace Sys2Proof.Machine

/-! Registers -/

/-- `V[x]` (R10). -/
def State.reg (s : State) (x : Nibble) : Byte := s.v[x.toNat]'x.isLt

/-- `V[x] <- b` (R10). -/
def State.setReg (s : State) (x : Nibble) (b : Byte) : State :=
  { s with v := s.v.set x.toNat b x.isLt }

/-- `V[k] <- bytes[0]`, `V[k+1] <- bytes[1]`, ...; indices past 15 name no register (R175). -/
def State.setRegs (s : State) (k : Nat) : List Byte → State
  | [] => s
  | b :: bs =>
    State.setRegs (if k < 16 then s.setReg (BitVec.ofNat 4 k) b else s) (k + 1) bs

/-- `I <- w` (R10). -/
def State.setI (s : State) (w : Word) : State := { s with iReg := w }

/-- `PC <- w` (R10). -/
def State.setPc (s : State) (w : Word) : State := { s with pc := w }

/-- `DT <- b` (R10). -/
def State.setDt (s : State) (b : Byte) : State := { s with dt := b }

/-- `ST <- b` (R10). -/
def State.setSt (s : State) (b : Byte) : State := { s with st := b }

/-! Memory -/

/-- `M[a]` (R10). -/
def State.byte (s : State) (a : Nat) : Byte := Memory.read s.params s.mem a

/-- The `n` bytes from `a` on. -/
def State.bytesAt (s : State) (a n : Nat) : List Byte := (List.range n).map fun j => s.byte (a + j)

/-- Whether an access of `n` bytes at `a` leaves memory (R55, R56); an access of no byte never does. -/
def outOfRange (a n : Nat) : Bool := decide (n ≠ 0 ∧ memSize ≤ a + n - 1)

/-- Memory replaced. -/
def State.setMem (s : State) (m : List Host.Cell) : State := { s with mem := m }

/-- `MemRead(a, n)` (R55). -/
def State.memRead (s : State) (a n : Nat) : Except Failure (List Byte) :=
  if outOfRange a n then .error (.memoryOutOfRange a n) else .ok (s.bytesAt a n)

/-- `MemWrite(a, n, bytes)` with `n` the length of `bytes` (R56). -/
def State.memWrite (s : State) (a : Nat) (bytes : List Byte) : Except Failure State :=
  if outOfRange a bytes.length then .error (.memoryOutOfRange a bytes.length)
  else .ok (s.setMem (Memory.writeList s.params s.mem a bytes))

/-! Call stack -/

/-- The call stack replaced. -/
def State.setStack (s : State) (l : List Word) : State := { s with stack := l }

/-- `push(v)` (R29). -/
def State.push (s : State) (w : Word) : Except Failure State :=
  if s.stack.length < stackCap then .ok (s.setStack (s.stack ++ [w])) else .error .stackOverflow

/-- `pop()` (R30): the last entry, and the state without it. -/
def State.pop (s : State) : Except Failure (Word × State) :=
  match s.stack.getLast? with
  | some w => .ok (w, s.setStack s.stack.dropLast)
  | none => .error .stackUnderflow

/-! Program counter -/

/-- `checkTarget(t)` (R120). -/
def checkTarget (t : Nat) : Except Failure Unit :=
  if memSize ≤ t then .error (.addressOutOfRange t) else .ok ()

/-- `skip(c)` (R121). -/
def State.skip (s : State) (c : Bool) : State := if c then s.setPc (s.pc + 2) else s

/-- The advance before decoding (R102). -/
def State.advance (s : State) : State := s.setPc (s.pc + 2)

/-- `slot <- slot + 1` (R106). -/
def State.countSlot (s : State) : State := { s with slot := s.slot + 1 }

/-- The word at `PC`, big-endian, or nothing when `PC + 1 >= MEM_SIZE` (R50, R58, R101). -/
def State.fetch (s : State) : Option Word :=
  if memSize ≤ s.pc.toNat + 1 then none
  else some (wordOfBytes (s.byte s.pc.toNat) (s.byte (s.pc.toNat + 1)))

/-! Draws of host inputs (R13) -/

/-- `draw_random()`: the byte drawn, and the state with the draw consumed (R153, log entry 3). -/
def State.drawRandom (s : State) : Byte × State :=
  (Config.randomByte s.rndDraws, { s with rndDraws := s.rndDraws + 1 })

/-- `draw_key_release()`: the answer, and the state with the query made (R196, log entry 4). -/
def State.drawKeyRelease (s : State) : Option Nibble × State :=
  (Config.keyRelease s.keyDraws, { s with keyDraws := s.keyDraws + 1 })

/-! Display -/

/-- `D[x][y]` (R14). -/
def State.pixel (s : State) (px py : Nat) : Bool := Grid.pixel s.display px py

/-- The display replaced. -/
def State.setDisplay (s : State) (d : Grid) : State := { s with display := d }

/-! Failures -/

/-- The code column of R220. -/
def Failure.code : Failure → Nat
  | .unknownOpcode => 1
  | .addressOutOfRange _ => 2
  | .stackOverflow => 3
  | .stackUnderflow => 4
  | .fetchOutOfRange => 5
  | .memoryOutOfRange _ _ => 6
  | .programTooLarge _ => 7

/-- The class column of R220. -/
def Failure.cls : Failure → FailureClass
  | .unknownOpcode => .instructionLevel
  | .addressOutOfRange _ => .instructionLevel
  | .stackOverflow => .instructionLevel
  | .stackUnderflow => .instructionLevel
  | .fetchOutOfRange => .fatal
  | .memoryOutOfRange _ _ => .fatal
  | .programTooLarge _ => .loadTime

/-- The code of a record (R221). -/
def FaultRecord.code (r : FaultRecord) : Nat := r.failure.code

/-- Whether a failure halts the engine: a fatal one always, an instruction-level one with `HALT_ON_FAULT`
(R223, R224). -/
def Failure.halts (haltOnFault : Bool) (f : Failure) : Bool :=
  match f.cls with
  | .fatal => true
  | .instructionLevel => haltOnFault
  | .loadTime => false

/-- What a failure does, whoever raises it: one record is appended, and the engine halts or goes on
(R221 to R224). Nothing else is written; the pc keeps the value it has. There is no return from it: no handler runs
(R228, R229). -/
def State.raise (s : State) (f : Failure) (pc0 : Word) (word : Option Word) : State :=
  { s with
    faults := s.faults ++ [{ failure := f, pc0 := some pc0, word := word }]
    run := if f.halts s.params.haltOnFault then .halted else s.run }

/-- `raise` inside an instruction: `pc0 = PC - 2` (R25) and the word is the instruction's own (log entry 8). -/
def State.fail (s : State) (i : Instr) (f : Failure) : State := s.raise f (s.pc - 2) (some (encode i))

end Sys2Proof.Machine
end

