-- ==== Sys2Proof/Machine/Boot.lean ====
section
/-! DEFINITION. What the host does before a run: construction, font install, Reset and program load
(spec/70_reset_and_hazards.md R260 to R266). These are host operations, not steps. -/

namespace Sys2Proof.Machine

/-- Memory of zeros, as a canonical list: the font's place holds 0 where the font is not 0 (R260). -/
def Memory.zeros (p : Params) : List Host.Cell :=
  (List.range fontLen).filterMap fun j =>
    if Memory.initial p (p.fontBase.val + j) = 0 then none else some (p.fontBase.val + j, 0)

/-- Construction (R260): everything 0 or empty, `PC = 0x200`, before the font install. -/
def State.construct (p : Params) : State := { State.resetWith p with mem := Memory.zeros p }

/-- Font install (R261). -/
def State.installFont (s : State) : State :=
  { s with mem := Memory.writeList s.params s.mem s.params.fontBase.val s.params.fontData.toList }

/-- The Reset procedure (R262): the program region is zeroed, low memory, the display and the random source are
left as they are. It starts a new run at the first event of a frame (log entry 7). -/
def State.resetProc (s : State) : State :=
  { s with
    mem := s.mem.filter fun c => decide (c.1 < progStart)
    v := Vector.replicate 16 0
    iReg := 0
    stack := []
    dt := 0
    st := 0
    pc := 0x200
    run := .running
    faults := []
    slot := 0
    kbdMask := 0
    loop := .snapshot }

/-- What a load answers: the loaded state, or a record and the state no frame follows. -/
inductive LoadResult where
  | loaded (s : State)
  | failed (r : FaultRecord) (s : State)
  deriving DecidableEq, Repr

/-- Program load (R263, R264): at most `MAX_PROGRAM` bytes at `PROG_START`, else ProgramTooLarge and nothing
written (R225). The record goes to the host, not into the engine's log (log entry 12). -/
def State.load (s : State) (image : List Byte) : LoadResult :=
  if image.length ≤ maxProgram then
    .loaded { s with mem := Memory.writeList s.params s.mem progStart image }
  else
    .failed { failure := .programTooLarge image.length, pc0 := none, word := none } { s with loop := .aborted }

/-- The boot order of R266 up to the first frame. -/
def boot (p : Params) (image : List Byte) : LoadResult :=
  (State.construct p).installFont.resetProc.load image

end Sys2Proof.Machine
end

