-- ==== Sys2Proof/Machine/Flags.lean ====
section
/-! DEFINITION. The values VF takes (spec/10_state.md R21, spec/42_alu.md R144 to R152, spec/44 R191), and the one
shape every flag instruction has: the primary result first, VF last (spec/00_scope.md R12). -/

namespace Sys2Proof.Machine

/-- A flag as a byte: 1 or 0. -/
def flagByte (c : Bool) : Byte := if c then 1 else 0

/-- Carry of `a + b`: the widened sum exceeds 255 (R148). -/
def carryFlag (a b : Byte) : Byte := flagByte (decide (255 < a.toNat + b.toNat))

/-- "Not borrow" of `a - b`: 1 iff `a >= b` (R149, R150). -/
def notBorrowFlag (a b : Byte) : Byte := flagByte (decide (b.toNat ≤ a.toNat))

/-- The bit a right shift moves out, `v & 1` (R151). -/
def shrFlag (b : Byte) : Byte := b &&& 1

/-- The bit a left shift moves out, `v >> 7` (R152). -/
def shlFlag (b : Byte) : Byte := b >>> 7

/-- The primary result into `V[x]`, then VF, the last register written (R12, R21). -/
def State.setWithFlag (s : State) (x : Nibble) (r flag : Byte) : State := (s.setReg x r).setReg vf flag

/-- The flag rule of OR, AND and XOR after the result `r` is stored in `V[x]`: if x = 15 then VF, now `r`, is
shifted right by 7, else VF is 0 (R144, C1). -/
def State.setLogic (s : State) (x : Nibble) (r : Byte) : State :=
  let stored := s.setReg x r
  if x = vf then stored.setReg vf (stored.reg vf >>> 7) else stored.setReg vf 0

end Sys2Proof.Machine
end

