-- ==== Sys2Proof/Machine/Operands.lean ====
section
/-! DEFINITION. The operand forms: immediates and targets (spec/30_encoding.md R72), addressing through I
(spec/43_index_memory.md R176), the sprite anchor (spec/44_display_input_timers.md R191) and the key test (R192). -/

namespace Sys2Proof.Machine

/-- `zext_16(nnn)` (R72). -/
def zextAddr (nnn : Addr12) : Word := nnn.setWidth 16

/-- The target of `JP V0, nnn`, `nnn + V[0]` with no wrap (R126). -/
def State.offsetTarget (s : State) (nnn : Addr12) : Nat := nnn.toNat + (s.reg 0).toNat

/-- The address `I` as an integer; byte `j` of an access is at `I + j` with no wrap (R176, D30). -/
def State.iAddr (s : State) : Nat := s.iReg.toNat

/-- `(I + k) mod 65536` (R174, R175). -/
def State.iPlus (s : State) (k : Nat) : Word := BitVec.ofNat 16 (s.iReg.toNat + k)

/-- The number of registers a block transfer moves, `x + 1` (R174, R175). -/
def blockLength (x : Nibble) : Nat := x.toNat + 1

/-- `[V[0], ..., V[x]]` (R174). -/
def State.regBlock (s : State) (x : Nibble) : List Byte :=
  (List.range (blockLength x)).map fun k => s.reg (BitVec.ofNat 4 k)

/-- The three decimal digits of a byte: hundreds, tens, ones (R173). -/
def bcdDigits (b : Byte) : List Byte :=
  [BitVec.ofNat 8 (b.toNat / 100), BitVec.ofNat 8 (b.toNat / 10 % 10), BitVec.ofNat 8 (b.toNat % 10)]

/-- `FONT_BASE + (V[x] & 0x0F) * 5` (R172). -/
def State.glyphAddr (s : State) (x : Nibble) : Word :=
  BitVec.ofNat 16 (s.params.fontBase.val + (s.reg x &&& 0x0F#8).toNat * glyphBytes)

/-- `x0 = V[x] mod 64` (R191). -/
def State.anchorX (s : State) (x : Nibble) : Nat := (s.reg x).toNat % dispW

/-- `y0 = V[y] mod 32` (R191). -/
def State.anchorY (s : State) (y : Nibble) : Nat := (s.reg y).toNat % dispH

/-- `keyPressed(v)`: `v < 16` and bit `v` of `kbd_mask` is 1 (R192, R35). -/
def State.keyPressed (s : State) (b : Byte) : Bool := decide (b.toNat < 16) && s.kbdMask.getLsbD b.toNat

end Sys2Proof.Machine
end

