-- ==== Sys2Proof/Machine/Alu.lean ====
section
/-! DEFINITION. The meanings of spec/42_alu.md: loads, arithmetic, logic, shifts, random. -/

namespace Sys2Proof.Machine

/-- `LD Vx, kk` (R141). -/
def execLdImm (x : Nibble) (kk : Byte) (s : State) : Result State := .next (s.setReg x kk)

/-- `ADD Vx, kk` (R142): modulo 256, no flag. -/
def execAddImm (x : Nibble) (kk : Byte) (s : State) : Result State := .next (s.setReg x (s.reg x + kk))

/-- `LD Vx, Vy` (R143). -/
def execLdReg (x y : Nibble) (s : State) : Result State := .next (s.setReg x (s.reg y))

/-- `OR Vx, Vy` (R145). -/
def execOrReg (x y : Nibble) (s : State) : Result State := .next (s.setLogic x (s.reg x ||| s.reg y))

/-- `AND Vx, Vy` (R146). -/
def execAndReg (x y : Nibble) (s : State) : Result State := .next (s.setLogic x (s.reg x &&& s.reg y))

/-- `XOR Vx, Vy` (R147). -/
def execXorReg (x y : Nibble) (s : State) : Result State := .next (s.setLogic x (s.reg x ^^^ s.reg y))

/-- `ADD Vx, Vy` (R148). -/
def execAddReg (x y : Nibble) (s : State) : Result State :=
  .next (s.setWithFlag x (s.reg x + s.reg y) (carryFlag (s.reg x) (s.reg y)))

/-- `SUB Vx, Vy` (R149). -/
def execSub (x y : Nibble) (s : State) : Result State :=
  .next (s.setWithFlag x (s.reg x - s.reg y) (notBorrowFlag (s.reg x) (s.reg y)))

/-- `SUBN Vx, Vy` (R150). -/
def execSubn (x y : Nibble) (s : State) : Result State :=
  .next (s.setWithFlag x (s.reg y - s.reg x) (notBorrowFlag (s.reg y) (s.reg x)))

/-- `SHR Vx, Vy` (R151): Vy is the operand. -/
def execShr (x y : Nibble) (s : State) : Result State :=
  .next (s.setWithFlag x (s.reg y >>> 1) (shrFlag (s.reg y)))

/-- `SHL Vx, Vy` (R152): Vy is the operand. -/
def execShl (x y : Nibble) (s : State) : Result State :=
  .next (s.setWithFlag x (s.reg y <<< 1) (shlFlag (s.reg y)))

/-- `RND Vx, kk` for a drawn byte `r` (R154). -/
def rndWith (r : Byte) (x : Nibble) (kk : Byte) (s : State) : State := s.setReg x (r &&& kk)

/-- `RND Vx, kk` (R153, R154): one draw, a free value (log entry 3). -/
def execRnd (x : Nibble) (kk : Byte) (s : State) : Result State :=
  .next (rndWith s.drawRandom.1 x kk s.drawRandom.2)

end Sys2Proof.Machine
end

