-- ==== Sys2Proof/Machine/ControlFlow.lean ====
section
/-! DEFINITION. The meanings of spec/41_control_flow.md. In each, `PC` is already `pc0 + 2` (spec/10_state.md R25). -/

namespace Sys2Proof.Machine

/-- `SYS nnn` (R122, `SYS_MODE = nop`, D2; log entry 2): nothing. -/
def execSys (_nnn : Addr12) (s : State) : Result State := .next s

/-- `RET` (R123). -/
def execRet (s : State) : Result State :=
  .next <| match s.pop with
    | .error f => s.fail .ret f
    | .ok (t, s') => s'.setPc t

/-- `JP nnn` (R124). -/
def execJp (nnn : Addr12) (s : State) : Result State :=
  .next <| match checkTarget nnn.toNat with
    | .error f => s.fail (.jp nnn) f
    | .ok () => s.setPc (zextAddr nnn)

/-- `CALL nnn` (R125): the target check, then the push of the advanced `PC`, then the jump. -/
def execCall (nnn : Addr12) (s : State) : Result State :=
  .next <| match checkTarget nnn.toNat with
    | .error f => s.fail (.call nnn) f
    | .ok () =>
      match s.push s.pc with
      | .error f => s.fail (.call nnn) f
      | .ok s' => s'.setPc (zextAddr nnn)

/-- `JP V0, nnn` (R126). -/
def execJpV0 (nnn : Addr12) (s : State) : Result State :=
  .next <| match checkTarget (s.offsetTarget nnn) with
    | .error f => s.fail (.jpV0 nnn) f
    | .ok () => s.setPc (BitVec.ofNat 16 (s.offsetTarget nnn))

/-- `SE Vx, kk` (R127). -/
def execSeImm (x : Nibble) (kk : Byte) (s : State) : Result State := .next (s.skip (s.reg x == kk))

/-- `SNE Vx, kk` (R128). -/
def execSneImm (x : Nibble) (kk : Byte) (s : State) : Result State := .next (s.skip (s.reg x != kk))

/-- `SE Vx, Vy` (R129). -/
def execSeReg (x y : Nibble) (s : State) : Result State := .next (s.skip (s.reg x == s.reg y))

/-- `SNE Vx, Vy` (R130). -/
def execSneReg (x y : Nibble) (s : State) : Result State := .next (s.skip (s.reg x != s.reg y))

end Sys2Proof.Machine
end

