-- ==== Sys2Proof/Machine/IndexMemory.lean ====
section
/-! DEFINITION. The meanings of spec/43_index_memory.md: the address register and the memory transfers. -/

namespace Sys2Proof.Machine

/-- `LD I, nnn` (R170). -/
def execLdI (nnn : Addr12) (s : State) : Result State := .next (s.setI (zextAddr nnn))

/-- `ADD I, Vx` (R171): modulo 65536, no flag, no check. -/
def execAddI (x : Nibble) (s : State) : Result State := .next (s.setI (s.iReg + (s.reg x).setWidth 16))

/-- `LD F, Vx` (R172). -/
def execLdF (x : Nibble) (s : State) : Result State := .next (s.setI (s.glyphAddr x))

/-- `LD B, Vx` (R173); I is unchanged. -/
def execLdB (x : Nibble) (s : State) : Result State :=
  .next <| match s.memWrite s.iAddr (bcdDigits (s.reg x)) with
    | .error f => s.fail (.ldB x) f
    | .ok s' => s'

/-- `LD [I], Vx` (R174): the block store; I ends past the last byte. -/
def execLdStore (x : Nibble) (s : State) : Result State :=
  .next <| match s.memWrite s.iAddr (s.regBlock x) with
    | .error f => s.fail (.ldStore x) f
    | .ok s' => s'.setI (s.iPlus (blockLength x))

/-- `LD Vx, [I]` (R175): the block load; I ends past the last byte. -/
def execLdLoad (x : Nibble) (s : State) : Result State :=
  .next <| match s.memRead s.iAddr (blockLength x) with
    | .error f => s.fail (.ldLoad x) f
    | .ok bytes => (s.setRegs 0 bytes).setI (s.iPlus (blockLength x))

end Sys2Proof.Machine
end

