-- ==== Sys2Proof/Machine/Peripherals.lean ====
section
/-! DEFINITION. The meanings of spec/44_display_input_timers.md: display, keyboard and timers. -/

namespace Sys2Proof.Machine

/-- `CLS` (R190). -/
def execCls (s : State) : Result State := .next (s.setDisplay Grid.clear)

/-- `DRW Vx, Vy, n` (R191): the range check, the blit at the wrapped anchor, then VF. -/
def execDrw (x y n : Nibble) (s : State) : Result State :=
  .next <| match s.memRead s.iAddr n.toNat with
    | .error f => s.fail (.drw x y n) f
    | .ok sprite =>
      let r := Grid.blit s.display (s.anchorX x) (s.anchorY y) sprite
      (s.setDisplay r.1).setReg vf (flagByte r.2)

/-- `SKP Vx` (R193). -/
def execSkp (x : Nibble) (s : State) : Result State := .next (s.skip (s.keyPressed (s.reg x)))

/-- `SKNP Vx` (R194). -/
def execSknp (x : Nibble) (s : State) : Result State := .next (s.skip (!s.keyPressed (s.reg x)))

/-- `LD Vx, DT` (R195). -/
def execLdVxDt (x : Nibble) (s : State) : Result State := .next (s.setReg x s.dt)

/-- `LD Vx, K` for a key-release answer `k` (R197): none rewinds the `PC` to this instruction. -/
def keyWaitWith (k : Option Nibble) (x : Nibble) (s : State) : State :=
  match k with
  | none => s.setPc (s.pc - 2)
  | some key => s.setReg x (key.setWidth 8)

/-- `LD Vx, K` (R196, R197): one query, a free value (log entry 4). -/
def execLdVxK (x : Nibble) (s : State) : Result State :=
  .next (keyWaitWith s.drawKeyRelease.1 x s.drawKeyRelease.2)

/-- `LD DT, Vx` (R198). -/
def execLdDtVx (x : Nibble) (s : State) : Result State := .next (s.setDt (s.reg x))

/-- `LD ST, Vx` (R199). -/
def execLdStVx (x : Nibble) (s : State) : Result State := .next (s.setSt (s.reg x))

end Sys2Proof.Machine
end

