-- ==== Sys2Proof/Machine/Cycle.lean ====
section
/-! DEFINITION. The cycle, the events of a frame and the execution loop (spec/40_cycle.md). -/

namespace Sys2Proof.Machine

/-- One cycle (R100): count the slot, fetch, advance, decode, execute. A failed fetch keeps the `PC` (R224); an
unknown word leaves it advanced (R222). -/
def State.cycle (s : State) : Result State :=
  match s.fetch with
  | none => .next (s.countSlot.raise .fetchOutOfRange s.pc none)
  | some w =>
    match decodeWord w with
    | .error _ => .next (s.countSlot.advance.raise .unknownOpcode s.pc (some w))
    | .ok i => exec i s.countSlot.advance

/-- Frame step 1: the keyboard snapshot, a free value (R107, R36, R244; log entry 5). -/
def State.takeSnapshot (s : State) : State :=
  { s with
    kbdMask := Config.pollBitmask s.pollDraws
    pollDraws := s.pollDraws + 1
    slot := 0
    loop := .batch }

/-- Saturating decrement (R232). -/
def satDec (b : Byte) : Byte := if b = 0 then 0 else b - 1

/-- Frame step 3: a tone request when ST is not 0 before the tick, then both timers decremented (R232, R233). -/
def State.tickTimers (s : State) : State :=
  { s with
    beeps := if s.st = 0 then s.beeps else s.beeps + 1
    dt := satDec s.dt
    st := satDec s.st
    loop := .present }

/-- Frame step 4: `present()`, an output (R243). -/
def State.presentFrame (s : State) : State := { s with presents := s.presents + 1, loop := .close }

/-- Frame step 5: the close check, a free value (R107, R109, R243; log entry 6). -/
def State.checkClose (s : State) : State :=
  { s with
    closeDraws := s.closeDraws + 1
    loop := if Config.shouldClose s.closeDraws then .ended else .snapshot }

/-- The next atomic event of the execution loop (R107 to R109). -/
def State.nextEvent (s : State) : Result State :=
  match s.run with
  | .halted => .fault .halted
  | .running =>
    match s.loop with
    | .snapshot => .next s.takeSnapshot
    | .batch => if s.slot < s.params.instrPerFrame then s.cycle else .next s.tickTimers
    | .present => .next s.presentFrame
    | .close => .next s.checkClose
    | .ended => .fault .runEnded
    | .aborted => .fault .startupAborted

/-- The address the next cycle fetches at, once a word is placed there: `PC`, or the entry point when no word at `PC`
lies in memory. -/
def State.placeAddr (s : State) : Word := if s.pc.toNat + 1 < memSize then s.pc else 0x200

/-- A word stored where the next cycle fetches, and the loop set so that the next event is that cycle. -/
def State.placeWord (s : State) (w : Word) : State :=
  { s with
    pc := s.placeAddr
    mem := Memory.writeList s.params s.mem s.placeAddr.toNat (bytesOfWord w)
    run := .running
    loop := .batch
    slot := if s.slot < s.params.instrPerFrame then s.slot else 0 }

end Sys2Proof.Machine
end

