-- ==== Sys2Proof/Safety.lean ====
section
/-! DEFINITION. What claims about the machine are stated in: the invariant of a run, the frame predicates, and the
closed forms that a statement compares a meaning with. -/

namespace Sys2Proof.Machine

/-- A record of a run's log (R220, R221): it has the failing address; the word is absent exactly for
FetchOutOfRange; the load-time kind is not among them. -/
def FaultRecord.wf (r : FaultRecord) : Bool :=
  r.pc0.isSome &&
    match r.failure with
    | .fetchOutOfRange => r.word.isNone
    | .programTooLarge _ => false
    | _ => r.word.isSome

/-- The invariant of a run: memory is canonical and inside the address space (R54); the stack holds at most 16
entries (R28), each at most 0x1000, and `PC` is at most 0x1002 (R26); `slot` is at most `INSTR_PER_FRAME` (R41); the
log's records are well formed (R221); a halted engine has recorded why (R108, R224). -/
structure State.Inv (s : State) : Prop where
  mem : Memory.wf s.params s.mem = true
  depth : s.stack.length ≤ stackCap
  entries : ∀ w ∈ s.stack, w.toNat ≤ 0x1000
  pc : s.pc.toNat ≤ 0x1002
  slot : s.slot ≤ s.params.instrPerFrame
  log : ∀ r ∈ s.faults, r.wf = true
  stuck : s.run = .halted → s.faults ≠ []

/-- The premise R223 recommends for a claim about a program: no fault recorded, and the engine running. -/
abbrev State.Clean (s : State) : Prop := s.faults = [] ∧ s.run = .running

/-- Every register but those listed reads as before. -/
def State.keepsRegs (s t : State) (written : List Nibble) : Prop := ∀ r, r ∉ written → t.reg r = s.reg r

/-- Every byte of memory reads as before. -/
def State.keepsMemory (s t : State) : Prop := ∀ a, t.byte a = s.byte a

/-- Every byte outside `[a, a + n)` reads as before. -/
def State.keepsMemoryOutside (s t : State) (a n : Nat) : Prop := ∀ b, b < a ∨ a + n ≤ b → t.byte b = s.byte b

/-- Nothing but registers changed, and of them only the listed ones; every byte of memory reads as before. -/
def State.onlyRegs (s t : State) (written : List Nibble) : Prop :=
  s.keepsRegs t written ∧ s.keepsMemory t ∧ t = { s with v := t.v }

/-- Nothing but `PC` changed; every byte of memory reads as before. -/
def State.onlyPc (s t : State) : Prop := s.keepsMemory t ∧ t = { s with pc := t.pc }

/-- The words a row matches decode to the instruction the row reads from their fields (R74). -/
def DecodesAs (mask pattern : Word) (instr : Word → Instr) : Prop :=
  ∀ w : Word, w &&& mask = pattern → decodeWord w = .ok (instr w)

/-- The state with one record of a failing instruction appended and, if it halts, `run` Halted; `PC` is the
advanced one, `pc0 + 2` (R221 to R224). -/
def State.logged (s : State) (f : Failure) (word : Word) (halts : Bool) : State :=
  { s with
    faults := s.faults ++ [{ failure := f, pc0 := some (s.pc - 2), word := some word }]
    run := if halts then .halted else s.run }

/-- The engine is about to run a cycle: Running, in a frame's batch, with budget left (R100, R107). -/
def State.inBatch (s : State) : Prop := s.run = .running ∧ s.loop = .batch ∧ s.slot < s.params.instrPerFrame

/-- The state an instruction executes in: the slot counted and `PC` advanced (R102, R106). -/
def State.atExecute (s : State) : State := { s with slot := s.slot + 1, pc := s.pc + 2 }

/-- The big-endian word at `PC`, `M[PC] * 256 + M[PC+1]` (R50). -/
def State.wordAtPc (s : State) : Word :=
  BitVec.ofNat 16 ((s.byte s.pc.toNat).toNat * 256 + (s.byte (s.pc.toNat + 1)).toNat)

/-- The state after a cycle whose instruction failed: `PC = pc0 + 2`, the slot counted, one record appended, and
Halted if the failure halts (R222 to R224). -/
def State.cycleFailed (s : State) (f : Failure) (halts : Bool) : State :=
  { s with
    pc := s.pc + 2
    slot := s.slot + 1
    faults := s.faults ++ [{ failure := f, pc0 := some s.pc, word := some s.wordAtPc }]
    run := if halts then .halted else .running }

/-- Whether a sprite of `n` rows at anchor `(x0, y0)`, read from I on, has its bit set at a place of the grid
(R191, D13). -/
def State.spriteBit (s : State) (x0 y0 n px py : Nat) : Bool :=
  decide (x0 ≤ px) && decide (px < x0 + 8) && decide (y0 ≤ py) && decide (py < y0 + n) &&
    (s.byte (s.iReg.toNat + (py - y0))).getLsbD (7 - (px - x0))

/-- Whether a blit unsets a pixel: a place of the grid that is set and has its sprite bit set (R191). -/
def State.collides (s : State) (x0 y0 n : Nat) : Prop :=
  ∃ px py, px < 64 ∧ py < 32 ∧ s.spriteBit x0 y0 n px py = true ∧ s.pixel px py = true

end Sys2Proof.Machine

namespace Sys2Proof

open Machine

/-- The conditions under which R220 says an instruction fails, with the failure. -/
def Instr.failsWith (i : Instr) (s : State) : Option Failure :=
  match i with
  | .ret => if s.stack = [] then some .stackUnderflow else none
  | .call _ => if 16 ≤ s.stack.length then some .stackOverflow else none
  | .jpV0 nnn =>
    if 0x1000 ≤ nnn.toNat + (s.reg 0).toNat then some (.addressOutOfRange (nnn.toNat + (s.reg 0).toNat)) else none
  | .drw _ _ n =>
    if n ≠ 0#4 ∧ 0x1000 ≤ s.iReg.toNat + n.toNat - 1 then some (.memoryOutOfRange s.iReg.toNat n.toNat) else none
  | .ldB _ => if 0x1000 ≤ s.iReg.toNat + 2 then some (.memoryOutOfRange s.iReg.toNat 3) else none
  | .ldStore x =>
    if 0x1000 ≤ s.iReg.toNat + x.toNat then some (.memoryOutOfRange s.iReg.toNat (x.toNat + 1)) else none
  | .ldLoad x =>
    if 0x1000 ≤ s.iReg.toNat + x.toNat then some (.memoryOutOfRange s.iReg.toNat (x.toNat + 1)) else none
  | _ => none

/-- The registers an instruction may write: its destination, VF for an instruction with a flag (R21), V0..Vx for the
block load (R20). -/
def Instr.written : Instr → List Nibble
  | .ldImm x _ | .addImm x _ | .ldReg x _ | .rnd x _ | .ldVxDt x | .ldVxK x => [x]
  | .orReg x _ | .andReg x _ | .xorReg x _ | .addReg x _ | .sub x _ | .shr x _ | .subn x _ | .shl x _ => [x, vf]
  | .drw _ _ _ => [vf]
  | .ldLoad x => (List.range (x.toNat + 1)).map (BitVec.ofNat 4)
  | _ => []

end Sys2Proof
end

