-- ==== Sys2Proof/Certificates/Slice0/Obligations.lean ====
section
/-! DEFINITION. The statements for the provers. Each docstring names the rules of spec/ its statement formalises; a
rule's `[decision D<n>]` marks are the spec's own (spec/92_eei_decisions.md). -/

open Sys2Proof Sys2Proof.Machine

/-! ## Encoding (spec/30_encoding.md) -/

/-- Decode and encode agree, every operand at every value (R71, R74, R76, R79, R90). -/
def Obligations.DecodeOfEncodeGivesBack : Prop :=
  ∀ i : Instr, i.wf = true → decodeWord (encode i) = .ok i

/-- The other direction: a word that decodes is the word of its instruction, so the record of a failing instruction
names the fetched word (R79, R221; log entry 8). -/
def Obligations.EncodeOfDecodeGivesWord : Prop :=
  ∀ (w : Word) (i : Instr), decodeWord w = .ok i → encode i = w ∧ i.wf = true

/-- The table scan and the direct dispatch agree on all 65536 words (R76, R77, C10). -/
def Obligations.TableScanAgreesWithDispatch : Prop :=
  ∀ w : Word, decodeScan w = decodeDirect w

/-- The unknown words are exactly the five spaces of R80 (marked derived there). -/
def Obligations.UnknownWordsAreTheFiveSpaces : Prop :=
  ∀ w : Word, decodeWord w = .error (.unknownOpcode w) ↔
    ((opField w = 0x5#4 ∧ nField w ≠ 0#4) ∨
     (opField w = 0x8#4 ∧ nField w ∈ [0x8#4, 0x9#4, 0xA#4, 0xB#4, 0xC#4, 0xD#4, 0xF#4]) ∨
     (opField w = 0x9#4 ∧ nField w ≠ 0#4) ∨
     (opField w = 0xE#4 ∧ kkField w ∉ [0x9E#8, 0xA1#8]) ∨
     (opField w = 0xF#4 ∧
       kkField w ∉ [0x07#8, 0x0A#8, 0x15#8, 0x18#8, 0x1E#8, 0x29#8, 0x33#8, 0x55#8, 0x65#8]))

/-- Only rows 1 and 2 overlap row 3, on the words 00E0 and 00EE (R75, marked derived there). -/
def Obligations.OnlyTheTwoLiteralsOverlapSys : Prop :=
  (∀ w : Word, w ≠ 0x00E0#16 → w ≠ 0x00EE#16 → (opcodeTable.filter (·.accepts w)).length ≤ 1) ∧
    (opcodeTable.filter (·.accepts 0x00E0)).map (·.pattern) = [0x00E0, 0x0000] ∧
    (opcodeTable.filter (·.accepts 0x00EE)).map (·.pattern) = [0x00EE, 0x0000]

/-- Words written out from R74, one or more of each family, and three unknown ones. -/
def Obligations.SampleWordsDecode : Prop :=
  decode [0x00, 0xE0] = .ok (.cls, []) ∧ decode [0x23, 0x00] = .ok (.call 0x300, []) ∧
    decode [0x33, 0x10] = .ok (.seImm 3 0x10, []) ∧ decode [0x81, 0x25] = .ok (.sub 1 2, []) ∧
    decode [0x81, 0x2E] = .ok (.shl 1 2, []) ∧ decode [0xC3, 0x0F] = .ok (.rnd 3 0x0F, []) ∧
    decode [0xA2, 0xF0] = .ok (.ldI 0x2F0, []) ∧ decode [0xF2, 0x55] = .ok (.ldStore 2, []) ∧
    decode [0xD1, 0x25] = .ok (.drw 1 2 5, []) ∧ decode [0xE1, 0x9E] = .ok (.skp 1, []) ∧
    decode [0xF4, 0x15] = .ok (.ldDtVx 4, []) ∧ decode [0x51, 0x21] = .error (.unknownOpcode 0x5121) ∧
    decode [0x80, 0x08] = .error (.unknownOpcode 0x8008) ∧ decode [0xF0, 0x0B] = .error (.unknownOpcode 0xF00B)

/-! ## The cycle and the frame (spec/40_cycle.md) -/

/-- A step runs the decoded instruction, with the slot counted and `PC` advanced first (R100, R102, R104, R106). -/
def Obligations.StepRunsDecodedInstruction : Prop :=
  ∀ (s : State) (i : Instr), s.inBatch → s.pc.toNat + 1 < 0x1000 →
    decode [s.byte s.pc.toNat, s.byte (s.pc.toNat + 1)] = .ok (i, []) → step s = exec i s.atExecute

/-- A word placed with `withFetchWord` is what the very next step runs (the model's own helper, log entry 11). -/
def Obligations.PlacedWordRunsNext : Prop :=
  ∀ (s : State) (w : Word) (i : Instr), s.params.wf → decodeWord w = .ok i →
    step (s.withFetchWord 16 w.toNat) = exec i (s.withFetchWord 16 w.toNat).atExecute

/-- R106: every cycle that starts counts one slot, whatever its outcome, and leaves the loop in its batch. -/
def Obligations.EveryCycleCountsOneSlot : Prop :=
  ∀ s : State, s.inBatch → ∃ t, step s = .next t ∧ t.slot = s.slot + 1 ∧ t.loop = .batch

/-- R108: a Halted engine has no step; Halted is entered only by a fatal failure or, with HALT_ON_FAULT, by a recorded
failure; Reset leaves it. That no step follows is `Fault.halted` (log entry 13). -/
def Obligations.HaltedHasNoStepUntilReset : Prop :=
  (∀ s : State, s.run = .halted → step s = .fault .halted) ∧
    (∀ s t : State, step s = .next t → s.run = .running ∧
      (t.run = .halted → ∃ r, t.faults = s.faults ++ [r] ∧
        (r.failure.cls = .fatal ∨ (r.failure.cls = .instructionLevel ∧ s.params.haltOnFault = true)))) ∧
    ∀ s : State, s.resetProc.run = .running

/-- R107: the events of a frame in their order: snapshot, cycles while budget is left, tick, presentation, close
check, and around again or to the end; a Halted engine stops where it is. The model's own: the place reached, `loop`
(log entry 7), the free answers and their counters (entries 5 and 6), the output counters (entry 9) and the stop
`Fault.halted` (entry 13). -/
def Obligations.FrameEventsRunInOrder : Prop :=
  ∀ s : State, (s.run = .halted → step s = .fault .halted) ∧ (s.run = .running →
    (s.loop = .snapshot → ∃ t, step s = .next t ∧ t.kbdMask = Config.pollBitmask s.pollDraws ∧ t.slot = 0 ∧
      t.loop = .batch ∧ t = { s with kbdMask := t.kbdMask, pollDraws := s.pollDraws + 1, slot := 0, loop := .batch }) ∧
    (s.loop = .batch → s.slot < s.params.instrPerFrame →
      step s = s.cycle ∧ ∃ t, step s = .next t ∧ t.loop = .batch ∧ t.kbdMask = s.kbdMask ∧ t.presents = s.presents) ∧
    (s.loop = .batch → s.params.instrPerFrame ≤ s.slot → ∃ t, step s = .next t ∧
      t.dt.toNat = s.dt.toNat - 1 ∧ t.st.toNat = s.st.toNat - 1 ∧
      t = { s with dt := t.dt, st := t.st, beeps := t.beeps, loop := .present }) ∧
    (s.loop = .present → step s = .next { s with presents := s.presents + 1, loop := .close }) ∧
    (s.loop = .close → ∃ t, step s = .next t ∧
      t.loop = (if Config.shouldClose s.closeDraws = true then .ended else .snapshot) ∧
      t = { s with closeDraws := s.closeDraws + 1, loop := t.loop }))

/-- R232, R233: the tick decrements both timers with saturation, independently, and asks for a tone once when ST is
not 0 before the decrement. The tone is the model's output counter `beeps` (log entry 9), the place after the tick its
field `loop` (entry 7). -/
def Obligations.TimerTickSaturatesAndBeeps : Prop :=
  ∀ s : State, s.run = .running → s.loop = .batch → s.params.instrPerFrame ≤ s.slot →
    ∃ t, step s = .next t ∧ (t.dt.toNat : Int) = max ((s.dt.toNat : Int) - 1) 0 ∧
      (t.st.toNat : Int) = max ((s.st.toNat : Int) - 1) 0 ∧
      (s.st ≠ 0#8 → t.beeps = s.beeps + 1) ∧ (s.st = 0#8 → t.beeps = s.beeps) ∧ t.loop = .present ∧
      s.keepsRegs t [] ∧ s.keepsMemory t ∧ t = { s with dt := t.dt, st := t.st, beeps := t.beeps, loop := t.loop }

/-- R243, R109: presentation changes no engine state; a close request at the close check ends the run, with the state
of that frame, and no step follows; without one the next frame begins. The
model's own: the places of `loop` (log entry 7), the output counter `presents` (entry 9), the free answer and its
counter (entry 6), the stop `Fault.runEnded` (entry 13). -/
def Obligations.CloseRequestEndsTheRun : Prop :=
  ∀ s : State, s.run = .running →
    (s.loop = .present → step s = .next { s with presents := s.presents + 1, loop := .close }) ∧
    (s.loop = .close → step s = .next { s with
      closeDraws := s.closeDraws + 1
      loop := if Config.shouldClose s.closeDraws = true then .ended else .snapshot }) ∧
    (s.loop = .ended → step s = .fault .runEnded)

/-- R274 (marked derived there): after N ticks DT has come down by N, never below 0. -/
def Obligations.TicksCountDownTheDelayTimer : Prop :=
  ∀ (n : Nat) (s : State), ((State.tickTimers)^[n] s).dt.toNat = s.dt.toNat - n

/-- R111 (marked derived there): a jump to its own address changes nothing but `slot`. -/
def Obligations.JumpToSelfIdles : Prop :=
  ∀ (s : State) (nnn : Addr12), s.inBatch → s.pc.toNat + 1 < 0x1000 → nnn.toNat = s.pc.toNat →
    decodeWord s.wordAtPc = .ok (.jp nnn) → step s = .next { s with slot := s.slot + 1 }

/-! ## Control flow (spec/41_control_flow.md) -/

/-- R122 with SYS_MODE = nop (the spec's decision D2; log entry 2): no state is written. -/
def Obligations.SysDoesNothing : Prop :=
  (∀ w : Word, w &&& 0xF000#16 = 0x0000#16 → w ≠ 0x00E0#16 → w ≠ 0x00EE#16 → decodeWord w = .ok (.sys (nnnField w))) ∧
    ∀ (nnn : Addr12) (s : State), ∃ t, exec (.sys nnn) s = .next t ∧ t = s ∧ s.keepsMemory t

/-- R123: RET pops the last entry into `PC`, unchecked; on an empty stack it fails. -/
def Obligations.RetPopsIntoPc : Prop :=
  DecodesAs 0xFFFF#16 0x00EE#16 (fun _ => .ret) ∧
    (∀ (s : State) (w : Word) (rest : List Word), s.stack = rest ++ [w] →
      ∃ t, exec .ret s = .next t ∧ t = { s with stack := rest, pc := w } ∧ s.keepsMemory t) ∧
    ∀ s : State, s.stack = [] → exec .ret s = .next (s.logged .stackUnderflow 0x00EE s.params.haltOnFault)

/-- R124: JP writes the zero-extended target. -/
def Obligations.JumpWritesPc : Prop :=
  DecodesAs 0xF000#16 0x1000#16 (fun w => .jp (nnnField w)) ∧
    ∀ (nnn : Addr12) (s : State), ∃ t, exec (.jp nnn) s = .next t ∧ t.pc.toNat = nnn.toNat ∧ s.onlyPc t

/-- R125: CALL pushes the advanced `PC` and jumps; at 16 entries it fails. -/
def Obligations.CallPushesAndJumps : Prop :=
  DecodesAs 0xF000#16 0x2000#16 (fun w => .call (nnnField w)) ∧
    (∀ (nnn : Addr12) (s : State), s.stack.length < 16 →
      ∃ t, exec (.call nnn) s = .next t ∧ t.stack = s.stack ++ [s.pc] ∧ t.pc.toNat = nnn.toNat ∧ s.keepsMemory t ∧
        t = { s with stack := t.stack, pc := t.pc }) ∧
    ∀ (nnn : Addr12) (s : State), 16 ≤ s.stack.length →
      exec (.call nnn) s = .next (s.logged .stackOverflow (encode (.call nnn)) s.params.haltOnFault)

/-- R126: JP V0 writes `nnn + V[0]`, or fails when the sum leaves memory. -/
def Obligations.JumpOffsetAddsV0 : Prop :=
  DecodesAs 0xF000#16 0xB000#16 (fun w => .jpV0 (nnnField w)) ∧
    (∀ (nnn : Addr12) (s : State), nnn.toNat + (s.reg 0).toNat < 0x1000 →
      ∃ t, exec (.jpV0 nnn) s = .next t ∧ t.pc.toNat = nnn.toNat + (s.reg 0).toNat ∧ s.onlyPc t) ∧
    ∀ (nnn : Addr12) (s : State), 0x1000 ≤ nnn.toNat + (s.reg 0).toNat →
      exec (.jpV0 nnn) s = .next (s.logged (.addressOutOfRange (nnn.toNat + (s.reg 0).toNat)) (encode (.jpV0 nnn))
        s.params.haltOnFault)

/-- R127, R128: the skips that compare with an immediate. -/
def Obligations.ImmediateSkipsCompare : Prop :=
  DecodesAs 0xF000#16 0x3000#16 (fun w => .seImm (xField w) (kkField w)) ∧
    DecodesAs 0xF000#16 0x4000#16 (fun w => .sneImm (xField w) (kkField w)) ∧
    ∀ (x : Nibble) (kk : Byte) (s : State),
      (∃ t, exec (.seImm x kk) s = .next t ∧ t.pc = (if s.reg x = kk then s.pc + 2 else s.pc) ∧ s.onlyPc t) ∧
      ∃ t, exec (.sneImm x kk) s = .next t ∧ t.pc = (if s.reg x ≠ kk then s.pc + 2 else s.pc) ∧ s.onlyPc t

/-- R129, R130: the skips that compare two registers; a nonzero low nibble is UnknownOpcode. -/
def Obligations.RegisterSkipsCompare : Prop :=
  DecodesAs 0xF00F#16 0x5000#16 (fun w => .seReg (xField w) (yField w)) ∧
    DecodesAs 0xF00F#16 0x9000#16 (fun w => .sneReg (xField w) (yField w)) ∧
    (∀ w : Word, (opField w = 0x5#4 ∨ opField w = 0x9#4) → nField w ≠ 0#4 → decodeWord w = .error (.unknownOpcode w)) ∧
    ∀ (x y : Nibble) (s : State),
      (∃ t, exec (.seReg x y) s = .next t ∧ t.pc = (if s.reg x = s.reg y then s.pc + 2 else s.pc) ∧ s.onlyPc t) ∧
      ∃ t, exec (.sneReg x y) s = .next t ∧ t.pc = (if s.reg x ≠ s.reg y then s.pc + 2 else s.pc) ∧ s.onlyPc t

/-- R29, R30, R125, R123: a call below capacity and the return after it give back the state. -/
def Obligations.CallThenReturnRestores : Prop :=
  ∀ (nnn : Addr12) (s : State), s.stack.length < 16 →
    ∃ t, exec (.call nnn) s = .next t ∧ t.pc.toNat = nnn.toNat ∧ t.stack.length = s.stack.length + 1 ∧
      exec .ret t = .next s

/-! ## ALU (spec/42_alu.md) -/

/-- R141. -/
def Obligations.LoadImmediateWritesVx : Prop :=
  DecodesAs 0xF000#16 0x6000#16 (fun w => .ldImm (xField w) (kkField w)) ∧
    ∀ (x : Nibble) (kk : Byte) (s : State),
      ∃ t, exec (.ldImm x kk) s = .next t ∧ t.reg x = kk ∧ s.onlyRegs t [x]

/-- R142: modulo 256, and VF is no carry. -/
def Obligations.AddImmediateWrapsWithoutFlag : Prop :=
  DecodesAs 0xF000#16 0x7000#16 (fun w => .addImm (xField w) (kkField w)) ∧
    ∀ (x : Nibble) (kk : Byte) (s : State),
      ∃ t, exec (.addImm x kk) s = .next t ∧ (t.reg x).toNat = ((s.reg x).toNat + kk.toNat) % 256 ∧ s.onlyRegs t [x]

/-- R143. -/
def Obligations.LoadRegisterCopiesVy : Prop :=
  DecodesAs 0xF00F#16 0x8000#16 (fun w => .ldReg (xField w) (yField w)) ∧
    ∀ (x y : Nibble) (s : State),
      ∃ t, exec (.ldReg x y) s = .next t ∧ t.reg x = s.reg y ∧ s.onlyRegs t [x]

/-- R144 to R147: the bitwise result `r`; if x is not 15 then `Vx = r` and VF = 0, else VF = `r >> 7`. -/
def Obligations.LogicStoresResultThenFlag : Prop :=
  DecodesAs 0xF00F#16 0x8001#16 (fun w => .orReg (xField w) (yField w)) ∧
    DecodesAs 0xF00F#16 0x8002#16 (fun w => .andReg (xField w) (yField w)) ∧
    DecodesAs 0xF00F#16 0x8003#16 (fun w => .xorReg (xField w) (yField w)) ∧
    ∀ (x y : Nibble) (s : State) (i : Instr) (r : Byte),
      (i = .orReg x y ∧ r = s.reg x ||| s.reg y) ∨ (i = .andReg x y ∧ r = s.reg x &&& s.reg y) ∨
        (i = .xorReg x y ∧ r = s.reg x ^^^ s.reg y) →
      ∃ t, exec i s = .next t ∧ (x ≠ vf → t.reg x = r ∧ t.reg vf = 0) ∧ (x = vf → t.reg vf = r >>> 7) ∧
        s.onlyRegs t [x, vf]

/-- R148: the sum modulo 256, then VF = carry, which wins when x = 15. -/
def Obligations.AddRegisterSetsCarry : Prop :=
  DecodesAs 0xF00F#16 0x8004#16 (fun w => .addReg (xField w) (yField w)) ∧
    ∀ (x y : Nibble) (s : State), ∃ t, exec (.addReg x y) s = .next t ∧
      (x ≠ vf → (t.reg x).toNat = ((s.reg x).toNat + (s.reg y).toNat) % 256) ∧
      t.reg vf = (if (s.reg x).toNat + (s.reg y).toNat > 255 then 1 else 0) ∧ s.onlyRegs t [x, vf]

/-- R149: the difference modulo 256, then VF = NOT borrow. -/
def Obligations.SubSetsNotBorrow : Prop :=
  DecodesAs 0xF00F#16 0x8005#16 (fun w => .sub (xField w) (yField w)) ∧
    ∀ (x y : Nibble) (s : State), ∃ t, exec (.sub x y) s = .next t ∧
      (x ≠ vf → ((t.reg x).toNat : Int) = (((s.reg x).toNat : Int) - (s.reg y).toNat) % 256) ∧
      t.reg vf = (if (s.reg x).toNat ≥ (s.reg y).toNat then 1 else 0) ∧ s.onlyRegs t [x, vf]

/-- R150: Vy minus Vx into Vx, then VF = NOT borrow. -/
def Obligations.SubnReversesTheOperands : Prop :=
  DecodesAs 0xF00F#16 0x8007#16 (fun w => .subn (xField w) (yField w)) ∧
    ∀ (x y : Nibble) (s : State), ∃ t, exec (.subn x y) s = .next t ∧
      (x ≠ vf → ((t.reg x).toNat : Int) = (((s.reg y).toNat : Int) - (s.reg x).toNat) % 256) ∧
      t.reg vf = (if (s.reg y).toNat ≥ (s.reg x).toNat then 1 else 0) ∧ s.onlyRegs t [x, vf]

/-- R151: Vy shifted right by one into Vx, then VF = bit 0 of the old Vy. -/
def Obligations.ShrShiftsVy : Prop :=
  DecodesAs 0xF00F#16 0x8006#16 (fun w => .shr (xField w) (yField w)) ∧
    ∀ (x y : Nibble) (s : State), ∃ t, exec (.shr x y) s = .next t ∧
      (x ≠ vf → (t.reg x).toNat = (s.reg y).toNat / 2) ∧ (t.reg vf).toNat = (s.reg y).toNat % 2 ∧
      s.onlyRegs t [x, vf]

/-- R152: Vy shifted left by one into Vx, then VF = bit 7 of the old Vy. -/
def Obligations.ShlShiftsVy : Prop :=
  DecodesAs 0xF00F#16 0x800E#16 (fun w => .shl (xField w) (yField w)) ∧
    ∀ (x y : Nibble) (s : State), ∃ t, exec (.shl x y) s = .next t ∧
      (x ≠ vf → (t.reg x).toNat = (s.reg y).toNat * 2 % 256) ∧ (t.reg vf).toNat = (s.reg y).toNat / 128 ∧
      s.onlyRegs t [x, vf]

/-- R153, R154: one draw, masked with kk; the draw is a free value (log entry 3). -/
def Obligations.RndMasksOneDraw : Prop :=
  DecodesAs 0xF000#16 0xC000#16 (fun w => .rnd (xField w) (kkField w)) ∧
    ∀ (x : Nibble) (kk : Byte) (s : State), ∃ t, exec (.rnd x kk) s = .next t ∧
      t.reg x = Config.randomByte s.rndDraws &&& kk ∧ (kk = 0#8 → t.reg x = 0) ∧ s.keepsRegs t [x] ∧ s.keepsMemory t ∧
      t = { s with v := t.v, rndDraws := s.rndDraws + 1 }

/-! ## Index register and memory (spec/43_index_memory.md) -/

/-- R170. -/
def Obligations.LoadIndexWritesI : Prop :=
  DecodesAs 0xF000#16 0xA000#16 (fun w => .ldI (nnnField w)) ∧
    ∀ (nnn : Addr12) (s : State), ∃ t, exec (.ldI nnn) s = .next t ∧ t.iReg.toNat = nnn.toNat ∧ s.keepsMemory t ∧
      t = { s with iReg := t.iReg }

/-- R171: modulo 65536, no flag, no check. -/
def Obligations.AddIndexWraps : Prop :=
  DecodesAs 0xF0FF#16 0xF01E#16 (fun w => .addI (xField w)) ∧
    ∀ (x : Nibble) (s : State), ∃ t, exec (.addI x) s = .next t ∧
      t.iReg.toNat = (s.iReg.toNat + (s.reg x).toNat) % 65536 ∧ s.keepsMemory t ∧ t = { s with iReg := t.iReg }

/-- R172: the glyph of the low nibble, at any FONT_BASE; the result is in `FONT_BASE .. FONT_BASE + 75`. -/
def Obligations.LoadFontSelectsGlyph : Prop :=
  DecodesAs 0xF0FF#16 0xF029#16 (fun w => .ldF (xField w)) ∧
    ∀ (x : Nibble) (s : State), ∃ t, exec (.ldF x) s = .next t ∧
      t.iReg.toNat = s.params.fontBase.val + (s.reg x).toNat % 16 * 5 ∧
      t.iReg.toNat ≤ s.params.fontBase.val + 75 ∧ s.keepsMemory t ∧ t = { s with iReg := t.iReg }

/-- R173: the three decimal digits at I, I+1, I+2, or a failure with nothing written; I is unchanged. -/
def Obligations.BcdStoresThreeDigits : Prop :=
  DecodesAs 0xF0FF#16 0xF033#16 (fun w => .ldB (xField w)) ∧
    (∀ (x : Nibble) (s : State), s.iReg.toNat + 2 < 0x1000 → ∃ t, exec (.ldB x) s = .next t ∧
      (t.byte s.iAddr).toNat = (s.reg x).toNat / 100 ∧ (t.byte (s.iAddr + 1)).toNat = (s.reg x).toNat / 10 % 10 ∧
      (t.byte (s.iAddr + 2)).toNat = (s.reg x).toNat % 10 ∧ s.keepsMemoryOutside t s.iAddr 3 ∧
      t = { s with mem := t.mem }) ∧
    ∀ (x : Nibble) (s : State), 0x1000 ≤ s.iReg.toNat + 2 →
      exec (.ldB x) s = .next (s.logged (.memoryOutOfRange s.iReg.toNat 3) (encode (.ldB x)) true)

/-- R174: V0..Vx stored from I on, I left past the last byte, or a failure with nothing written. -/
def Obligations.BlockStoreWritesRegisters : Prop :=
  DecodesAs 0xF0FF#16 0xF055#16 (fun w => .ldStore (xField w)) ∧
    (∀ (x : Nibble) (s : State), s.iReg.toNat + x.toNat < 0x1000 → ∃ t, exec (.ldStore x) s = .next t ∧
      (∀ k : Nibble, k.toNat ≤ x.toNat → t.byte (s.iAddr + k.toNat) = s.reg k) ∧
      s.keepsMemoryOutside t s.iAddr (x.toNat + 1) ∧ t.iReg.toNat = s.iReg.toNat + x.toNat + 1 ∧
      t = { s with mem := t.mem, iReg := t.iReg }) ∧
    ∀ (x : Nibble) (s : State), 0x1000 ≤ s.iReg.toNat + x.toNat →
      exec (.ldStore x) s =
        .next (s.logged (.memoryOutOfRange s.iReg.toNat (x.toNat + 1)) (encode (.ldStore x)) true)

/-- R175: V0..Vx loaded from I on, I left past the last byte, or a failure with nothing written. -/
def Obligations.BlockLoadReadsRegisters : Prop :=
  DecodesAs 0xF0FF#16 0xF065#16 (fun w => .ldLoad (xField w)) ∧
    (∀ (x : Nibble) (s : State), s.iReg.toNat + x.toNat < 0x1000 → ∃ t, exec (.ldLoad x) s = .next t ∧
      (∀ k : Nibble, k.toNat ≤ x.toNat → t.reg k = s.byte (s.iAddr + k.toNat)) ∧
      (∀ k : Nibble, x.toNat < k.toNat → t.reg k = s.reg k) ∧ s.keepsMemory t ∧
      t.iReg.toNat = s.iReg.toNat + x.toNat + 1 ∧ t = { s with v := t.v, iReg := t.iReg }) ∧
    ∀ (x : Nibble) (s : State), 0x1000 ≤ s.iReg.toNat + x.toNat →
      exec (.ldLoad x) s =
        .next (s.logged (.memoryOutOfRange s.iReg.toNat (x.toNat + 1)) (encode (.ldLoad x)) true)

/-- R64, R271 (marked derived there): the next fetch reads what a block store just wrote at `PC`, and runs it. -/
def Obligations.StoredWordIsFetchedNext : Prop :=
  ∀ (s : State) (i : Instr), s.inBatch → s.iReg = s.pc → s.pc.toNat + 1 < 0x1000 →
    decode [s.reg 0, s.reg 1] = .ok (i, []) →
    ∃ t, exec (.ldStore 1) s = .next t ∧ step t = exec i t.atExecute

/-! ## Display, keyboard, timers (spec/44_display_input_timers.md) -/

/-- R190: every pixel unset; VF is not written. -/
def Obligations.ClsUnsetsEveryPixel : Prop :=
  DecodesAs 0xFFFF#16 0x00E0#16 (fun _ => .cls) ∧
    ∀ s : State, ∃ t, exec .cls s = .next t ∧ (∀ px py, px < 64 → py < 32 → t.pixel px py = false) ∧
      s.keepsRegs t [] ∧ s.keepsMemory t ∧ t = { s with display := t.display }

/-- R191: each pixel of the grid is XORed with its sprite bit, the anchor wrapped and the rest clipped; VF is the
collision over the whole sprite; out of range it fails and draws nothing. -/
def Obligations.DrawXorsSpriteAndFlagsCollision : Prop :=
  DecodesAs 0xF000#16 0xD000#16 (fun w => .drw (xField w) (yField w) (nField w)) ∧
    (∀ (x y n : Nibble) (s : State), n = 0#4 ∨ s.iReg.toNat + n.toNat - 1 < 0x1000 →
      ∃ t, exec (.drw x y n) s = .next t ∧
        (∀ px py, px < 64 → py < 32 → t.pixel px py =
          (s.pixel px py ^^ s.spriteBit ((s.reg x).toNat % 64) ((s.reg y).toNat % 32) n.toNat px py)) ∧
        (s.collides ((s.reg x).toNat % 64) ((s.reg y).toNat % 32) n.toNat → t.reg vf = 1) ∧
        (¬ s.collides ((s.reg x).toNat % 64) ((s.reg y).toNat % 32) n.toNat → t.reg vf = 0) ∧
        s.keepsRegs t [vf] ∧ s.keepsMemory t ∧ t = { s with v := t.v, display := t.display }) ∧
    ∀ (x y n : Nibble) (s : State), n ≠ 0#4 → 0x1000 ≤ s.iReg.toNat + n.toNat - 1 →
      exec (.drw x y n) s = .next (s.logged (.memoryOutOfRange s.iReg.toNat n.toNat) (encode (.drw x y n)) true)

/-- R192 to R194: the key skips test bit Vx of the snapshot; a Vx of 16 or more is no pressed key. -/
def Obligations.KeySkipsTestTheSnapshot : Prop :=
  DecodesAs 0xF0FF#16 0xE09E#16 (fun w => .skp (xField w)) ∧ DecodesAs 0xF0FF#16 0xE0A1#16 (fun w => .sknp (xField w)) ∧
    ∀ (x : Nibble) (s : State),
      (∃ t, exec (.skp x) s = .next t ∧ s.onlyPc t ∧
        t.pc = (if (s.reg x).toNat < 16 ∧ s.kbdMask.toNat / 2 ^ (s.reg x).toNat % 2 = 1 then s.pc + 2 else s.pc)) ∧
      ∃ t, exec (.sknp x) s = .next t ∧ s.onlyPc t ∧
        t.pc = (if (s.reg x).toNat < 16 ∧ s.kbdMask.toNat / 2 ^ (s.reg x).toNat % 2 = 1 then s.pc else s.pc + 2)

/-- R196, R197: exactly one key-release query; with answer none the `PC` is rewound to the instruction and no register
changes, with a key the index is stored and the `PC` stays advanced. The answer is a free value (log entry 4): the last
two clauses say what happens for every answer. -/
def Obligations.KeyWaitRewindsOrStores : Prop :=
  DecodesAs 0xF0FF#16 0xF00A#16 (fun w => .ldVxK (xField w)) ∧
    (∀ (x : Nibble) (s : State), exec (.ldVxK x) s =
      .next (keyWaitWith (Config.keyRelease s.keyDraws) x { s with keyDraws := s.keyDraws + 1 })) ∧
    (∀ (x : Nibble) (s : State), ∃ t, exec (.ldVxK x) s = .next t ∧ t.keyDraws = s.keyDraws + 1 ∧ s.keepsRegs t [x] ∧
      s.keepsMemory t ∧ t = { s with v := t.v, pc := t.pc, keyDraws := t.keyDraws }) ∧
    (∀ (x : Nibble) (s : State), keyWaitWith none x s = { s with pc := s.pc - 2 }) ∧
    ∀ (k x : Nibble) (s : State), (keyWaitWith (some k) x s).reg x = k.setWidth 8 ∧
      s.onlyRegs (keyWaitWith (some k) x s) [x]

/-- R195, R198, R199: the timer moves are plain copies. -/
def Obligations.TimerMovesCopy : Prop :=
  DecodesAs 0xF0FF#16 0xF007#16 (fun w => .ldVxDt (xField w)) ∧ DecodesAs 0xF0FF#16 0xF015#16 (fun w => .ldDtVx (xField w)) ∧
    DecodesAs 0xF0FF#16 0xF018#16 (fun w => .ldStVx (xField w)) ∧
    ∀ (x : Nibble) (s : State),
      (∃ t, exec (.ldVxDt x) s = .next t ∧ t.reg x = s.dt ∧ s.onlyRegs t [x]) ∧
      (∃ t, exec (.ldDtVx x) s = .next t ∧ t.dt = s.reg x ∧ s.keepsMemory t ∧ t = { s with dt := t.dt }) ∧
      ∃ t, exec (.ldStVx x) s = .next t ∧ t.st = s.reg x ∧ s.keepsMemory t ∧ t = { s with st := t.st }

/-! ## Failures (spec/60_exceptions.md) -/

/-- R222, R223: an instruction-level failure leaves `PC = pc0 + 2`, one slot counted and one record, nothing else; the
engine goes on, or halts with HALT_ON_FAULT. -/
def Obligations.InstructionFailureOnlyLogsAndAdvances : Prop :=
  ∀ s : State, s.inBatch → s.pc.toNat + 1 < 0x1000 →
    (∀ e, decodeWord s.wordAtPc = .error e →
      step s = .next (s.cycleFailed .unknownOpcode s.params.haltOnFault)) ∧
    ∀ i f, decodeWord s.wordAtPc = .ok i → i.failsWith s.atExecute = some f → f.cls = .instructionLevel →
      step s = .next (s.cycleFailed f s.params.haltOnFault)

/-- R224, R58: a fatal failure appends its record and halts, whatever HALT_ON_FAULT says; a failed fetch keeps `PC`, an
out-of-range access leaves it at `pc0 + 2`; nothing else is written. -/
def Obligations.FatalFailureAlwaysHalts : Prop :=
  ∀ s : State, s.inBatch →
    (0x1000 ≤ s.pc.toNat + 1 → step s = .next { s with
      slot := s.slot + 1
      faults := s.faults ++ [{ failure := .fetchOutOfRange, pc0 := some s.pc, word := none }]
      run := .halted }) ∧
    (s.pc.toNat + 1 < 0x1000 → ∀ i f, decodeWord s.wordAtPc = .ok i → i.failsWith s.atExecute = some f →
      f.cls = .fatal → step s = .next (s.cycleFailed f true))

/-- R220: an instruction fails exactly on the tabled conditions, and every other instruction and operand completes
with nothing recorded. The model's exec never stops (no fault, no refusal). -/
def Obligations.InstructionsFailExactlyWhereTabled : Prop :=
  ∀ (i : Instr) (s : State),
    (∀ f, i.failsWith s = some f → exec i s =
      .next (s.logged f (encode i) (decide (f.cls = .fatal) || s.params.haltOnFault))) ∧
    (i.failsWith s = none → ∃ t, exec i s = .next t ∧ t.faults = s.faults ∧ t.run = s.run)

/-- R39, R221, R226: a step appends at most one record, well formed, and removes none; the parameters never change. -/
def Obligations.LogGrowsByAtMostOneRecord : Prop :=
  ∀ s t : State, step s = .next t → t.params = s.params ∧
    (t.faults = s.faults ∨ ∃ r, r.wf = true ∧ t.faults = s.faults ++ [r])

/-! ## Invariants and whole-machine rules (spec/10_state.md, spec/20_memory.md) -/

/-- Every step keeps the invariant of a run (R26, R28, R41, R54, R221). -/
def Obligations.StepKeepsTheInvariant : Prop :=
  ∀ s t : State, s.Inv → step s = .next t → t.Inv

/-- The state after reset meets the invariant, for every choice of the parameters. -/
def Obligations.ResetMeetsTheInvariant : Prop :=
  State.reset.Inv ∧ ∀ p : Params, (State.resetWith p).Inv

/-- R66, R28, R34: memory is written only by LD B and the block store, the stack only by CALL and RET, the display only
by CLS and DRW. -/
def Obligations.MemoryStackDisplayWriters : Prop :=
  ∀ (i : Instr) (s t : State), exec i s = .next t →
    (t.mem ≠ s.mem → ∃ x, i = .ldB x ∨ i = .ldStore x) ∧
    (t.stack ≠ s.stack → i = .ret ∨ ∃ nnn, i = .call nnn) ∧
    (t.display ≠ s.display → i = .cls ∨ ∃ x y n, i = .drw x y n)

/-- R23, R24, R27, R36, R41: I, `PC` and the timers are written only by the instructions the rules name; no
instruction writes the snapshot, the slot, the loop or the frame's outputs. -/
def Obligations.IndexTimerPcWriters : Prop :=
  ∀ (i : Instr) (s t : State), exec i s = .next t →
    (t.iReg ≠ s.iReg → (∃ nnn, i = .ldI nnn) ∨ ∃ x, i = .addI x ∨ i = .ldF x ∨ i = .ldStore x ∨ i = .ldLoad x) ∧
    (t.dt ≠ s.dt → ∃ x, i = .ldDtVx x) ∧ (t.st ≠ s.st → ∃ x, i = .ldStVx x) ∧
    (t.pc ≠ s.pc → i = .ret ∨ (∃ nnn, i = .jp nnn ∨ i = .call nnn ∨ i = .jpV0 nnn) ∨
      (∃ x kk, i = .seImm x kk ∨ i = .sneImm x kk) ∨ (∃ x y, i = .seReg x y ∨ i = .sneReg x y) ∨
      ∃ x, i = .skp x ∨ i = .sknp x ∨ i = .ldVxK x) ∧
    t.kbdMask = s.kbdMask ∧ t.slot = s.slot ∧ t.loop = s.loop ∧ t.params = s.params ∧ t.pollDraws = s.pollDraws ∧
    t.closeDraws = s.closeDraws ∧ t.beeps = s.beeps ∧ t.presents = s.presents

/-- R20, R21: an instruction writes only its destination registers, and VF only as a destination or as the flag of one
of the nine instructions with a flag; a failing one writes none (R222, R224, R57). -/
def Obligations.RegistersChangeOnlyAsNamed : Prop :=
  ∀ (i : Instr) (s t : State), exec i s = .next t →
    s.keepsRegs t i.written ∧ (t.faults ≠ s.faults → s.keepsRegs t [])

/-- R43 with R27, R38, R39, R41: no instruction observes ST, `run`, the log or the slot count: with any other values of
them it does the same to everything else, whether it completes or fails. -/
def Obligations.InstructionsIgnoreUnobservedState : Prop :=
  ∀ (i : Instr) (s t : State) (f : List FaultRecord) (k : Nat) (b : Byte) (r : RunState), exec i s = .next t →
    (t.faults = s.faults → exec i { s with faults := f, slot := k, st := b, run := r } = .next { t with
        faults := f
        slot := k
        st := (match i with | .ldStVx _ => t.st | _ => b)
        run := r }) ∧
    ∀ rec, t.faults = s.faults ++ [rec] →
      exec i { s with faults := f, slot := k, st := b, run := r } = .next { t with
        faults := f ++ [rec]
        slot := k
        st := b
        run := if rec.failure.halts s.params.haltOnFault then .halted else r }

/-! ## Reset and boot (spec/70_reset_and_hazards.md) -/

/-- R42: the value of every piece of state after construction with the font installed, and after the first Reset, for
every choice of the parameters (log entry 1). The two states are one, in the model's own fields too (log entries 3 to
7 and 9). What a later Reset does is ResetProcedureWrites. -/
def Obligations.ConstructionAndResetValues : Prop :=
  ∀ p : Params, ∃ s, s = State.resetWith p ∧
    (State.construct p).installFont = s ∧ (State.construct p).installFont.resetProc = s ∧
    (∀ r, s.reg r = 0) ∧ s.iReg = 0 ∧ s.pc = 0x200 ∧ s.dt = 0 ∧ s.st = 0 ∧ s.stack = [] ∧
    (∀ a, 0x200 ≤ a → a < 0x1000 → s.byte a = 0) ∧ (∀ j : Fin 80, s.byte (p.fontBase.val + j.val) = p.fontData[j]) ∧
    (∀ a, a < p.fontBase.val ∨ p.fontBase.val + 80 ≤ a → s.byte a = 0) ∧
    (∀ px py, px < 64 → py < 32 → s.pixel px py = false) ∧ s.kbdMask = 0 ∧ s.run = .running ∧ s.faults = [] ∧ s.slot = 0

/-- R260, R261: construction leaves memory, registers, I and the timers 0, `PC` at 0x200 and the rest empty; the font
install writes FONT_DATA at FONT_BASE and nothing else, and Reset does not repeat it. -/
def Obligations.ConstructionThenFontInstall : Prop :=
  (∀ (p : Params) (s : State), s = State.construct p → s.params = p ∧ (∀ a, s.byte a = 0) ∧ (∀ r, s.reg r = 0) ∧
    s.iReg = 0 ∧ s.dt = 0 ∧ s.st = 0 ∧ s.pc = 0x200 ∧ s.stack = [] ∧ (∀ px py, s.pixel px py = false) ∧
    s.run = .running ∧ s.faults = [] ∧ s.slot = 0) ∧
    ∀ s : State, (∀ j : Fin 80, s.installFont.byte (s.params.fontBase.val + j.val) = s.params.fontData[j]) ∧
      s.keepsMemoryOutside s.installFont s.params.fontBase.val 80 ∧
      s.installFont = { s with mem := s.installFont.mem } ∧ ∀ a, a < 0x200 → s.resetProc.byte a = s.byte a

/-- R262: what Reset writes and what it leaves, from any state. The model's own: the loop restarts at the first event
of a frame (log entry 7), and the random source is the counter of its draws (log entry 3). -/
def Obligations.ResetProcedureWrites : Prop :=
  ∀ s : State, ∃ t, t = s.resetProc ∧
    (∀ a, 0x200 ≤ a → a < 0x1000 → t.byte a = 0) ∧ (∀ a, a < 0x200 → t.byte a = s.byte a) ∧
    (∀ r, t.reg r = 0) ∧ t.iReg = 0 ∧ t.stack = [] ∧ t.dt = 0 ∧ t.st = 0 ∧ t.pc = 0x200 ∧ t.run = .running ∧
    t.faults = [] ∧ t.slot = 0 ∧ t.kbdMask = 0 ∧ (∀ px py, t.pixel px py = s.pixel px py) ∧
    t.display = s.display ∧ t.rndDraws = s.rndDraws ∧ t.params = s.params ∧ t.loop = .snapshot ∧
    (Memory.wf s.params s.mem = true → Memory.wf t.params t.mem = true)

/-- R263, R264: an image of at most 3584 bytes is written from 0x200 on and nothing else; a longer one is
ProgramTooLarge and writes no byte. That the load answers the record and no step follows (R225) is how the model reads
it (log entries 12 and 13). -/
def Obligations.LoadWritesTheImageOrAborts : Prop :=
  ∀ (s : State) (image : List Byte),
    (image.length ≤ 3584 → ∃ t, s.load image = .loaded t ∧
      (∀ (j : Nat) (h : j < image.length), t.byte (0x200 + j) = image[j]) ∧
      s.keepsMemoryOutside t 0x200 image.length ∧ t = { s with mem := t.mem }) ∧
    (3584 < image.length → ∃ r t, s.load image = .failed r t ∧ r.failure = .programTooLarge image.length ∧
      r.code = 7 ∧ s.keepsMemory t ∧ t = { s with loop := t.loop } ∧
      (s.run = .running → step t = .fault .startupAborted))
end

