-- ==== Sys2Proof/Laws/Grid.lean ====
section
/-! SUPPORT. The laws of the display grid. -/

namespace Sys2Proof.Machine

/-- What `putPixel` leaves: inside the grid the one pixel is toggled; nothing else changes (R241). -/
theorem Grid.pixel_putPixel (d : Grid) (px py qx qy : Nat) :
    Grid.pixel (Grid.putPixel d px py).1 qx qy =
      (if qx = px ∧ qy = py ∧ px < 64 ∧ py < 32 then !Grid.pixel d qx qy else Grid.pixel d qx qy) := by
  unfold Grid.putPixel
  by_cases h : px < dispW ∧ py < dispH
  · obtain ⟨hx, hy⟩ : px < 64 ∧ py < 32 := h
    by_cases hq : qx < 64 ∧ qy < 32
    · obtain ⟨hqx, hqy⟩ := hq
      by_cases hxe : qx = px
      · subst hxe
        by_cases hye : qy = py
        · subst hye
          simp [Grid.pixel, hx, hy]
        · simp [Grid.pixel, hx, hy, hqy, hye, Ne.symm hye]
      · simp [Grid.pixel, hx, hy, hqx, hqy, hxe, Ne.symm hxe]
    · have : ¬(qx = px ∧ qy = py ∧ px < 64 ∧ py < 32) := by
        rintro ⟨rfl, rfl, h1, h2⟩; exact hq ⟨h1, h2⟩
      rw [if_neg this]
      simp [Grid.pixel, hq]
  · have : ¬(qx = px ∧ qy = py ∧ px < 64 ∧ py < 32) := fun hh => h hh.2.2
    rw [dif_neg h, if_neg this]

/-- What `putPixel` answers: whether the pixel was set (R241). -/
theorem Grid.putPixel_hit (d : Grid) (px py : Nat) : (Grid.putPixel d px py).2 = Grid.pixel d px py := by
  unfold Grid.putPixel Grid.pixel
  simp only [dispW, dispH]
  split <;> rfl

@[simp] theorem Grid.pixel_clear (px py : Nat) : Grid.pixel Grid.clear px py = false := by
  unfold Grid.pixel Grid.clear
  split <;> simp

/-- Two grids with the same pixels are equal. -/
theorem Grid.ext_of_pixel {d d' : Grid} (h : ∀ px py, px < 64 → py < 32 → Grid.pixel d px py = Grid.pixel d' px py) :
    d = d' := by
  apply Vector.ext
  intro px hx
  apply Vector.ext
  intro py hy
  have := h px py hx hy
  simpa [Grid.pixel, hx, hy] using this

end Sys2Proof.Machine
end

