-- ==== Sys2Proof/Laws/Memory.lean ====
section
/-! SUPPORT. The laws of memory: read after write, and that every write keeps the canonical form. -/

namespace Sys2Proof.Machine

@[simp] theorem Memory.lookup_nil (a : Nat) : Memory.lookup [] a = none := rfl

@[simp] theorem Memory.read_nil (p : Params) (a : Nat) : Memory.read p [] a = Memory.initial p a := rfl

theorem Memory.lookup_insert (m : List Host.Cell) (a : Nat) (b : Byte) (c : Nat) :
    Memory.lookup (Memory.insert m a b) c = if c = a then some b else Memory.lookup m c := by
  induction m with
  | nil => simp [Memory.insert, Memory.lookup, eq_comm]
  | cons e m ih =>
    obtain ⟨k, d⟩ := e
    by_cases hlt : a < k
    · simp [Memory.insert, Memory.lookup, hlt, eq_comm]
    · by_cases hka : a = k
      · subst hka
        by_cases hc : c = a
        · simp [Memory.insert, Memory.lookup, hc]
        · simp [Memory.insert, Memory.lookup, hc, Ne.symm hc]
      · by_cases hkc : k = c
        · subst hkc
          simp [Memory.insert, Memory.lookup, hlt, hka, Ne.symm hka]
        · simp [Memory.insert, Memory.lookup, hlt, hka, hkc, ih]

theorem Memory.rising_head_lt {k : Nat} {d : Byte} {m : List Host.Cell}
    (h : Memory.rising ((k, d) :: m) = true) : ∀ c ∈ m, k < c.1 := by
  induction m generalizing k d with
  | nil => simp
  | cons e m ih =>
    obtain ⟨k', d'⟩ := e
    simp only [Memory.rising, Bool.and_eq_true, decide_eq_true_eq] at h
    intro c hc
    rcases List.mem_cons.mp hc with rfl | hc
    · exact h.1
    · exact lt_trans h.1 (ih h.2 c hc)

theorem Memory.rising_tail {e : Host.Cell} {m : List Host.Cell}
    (h : Memory.rising (e :: m) = true) : Memory.rising m = true := by
  cases m with
  | nil => rfl
  | cons e' m =>
    simp only [Memory.rising, Bool.and_eq_true] at h
    exact h.2

theorem Memory.rising_cons {k : Nat} {d : Byte} {m : List Host.Cell}
    (hm : Memory.rising m = true) (hk : ∀ c ∈ m, k < c.1) : Memory.rising ((k, d) :: m) = true := by
  cases m with
  | nil => rfl
  | cons e m =>
    simp only [Memory.rising, Bool.and_eq_true, decide_eq_true_eq]
    exact ⟨hk e (by simp), hm⟩

theorem Memory.lookup_eq_none_of_lt {m : List Host.Cell} {a : Nat} (h : ∀ c ∈ m, a < c.1) :
    Memory.lookup m a = none := by
  induction m with
  | nil => rfl
  | cons e m ih =>
    obtain ⟨k, d⟩ := e
    have hk : a < k := h (k, d) (by simp)
    simp only [Memory.lookup, if_neg (by omega : ¬k = a)]
    exact ih fun c hc => h c (by simp [hc])

theorem Memory.lookup_erase (m : List Host.Cell) (a c : Nat) :
    Memory.lookup (Memory.erase m a) c = if c = a then none else Memory.lookup m c := by
  induction m with
  | nil => simp [Memory.erase]
  | cons e m ih =>
    obtain ⟨k, d⟩ := e
    by_cases hka : k = a
    · subst hka
      by_cases hc : c = k
      · subst hc
        simpa [Memory.erase] using ih
      · simp [Memory.erase, Memory.lookup, ih, hc, Ne.symm hc]
    · by_cases hkc : k = c
      · subst hkc
        simp [Memory.erase, Memory.lookup, hka]
      · simp [Memory.erase, Memory.lookup, hka, hkc, ih]

theorem Memory.wf_iff {p : Params} {m : List Host.Cell} :
    Memory.wf p m = true ↔
      Memory.rising m = true ∧ ∀ c ∈ m, c.1 < memSize ∧ c.2 ≠ Memory.initial p c.1 := by
  simp [Memory.wf]

theorem Memory.wf_rising {p : Params} {m : List Host.Cell} (h : Memory.wf p m = true) :
    Memory.rising m = true := (Memory.wf_iff.mp h).1

@[simp] theorem Memory.wf_nil (p : Params) : Memory.wf p [] = true := rfl

/-- Read after write: the byte written at its address, every other address as before. -/
theorem Memory.read_write (p : Params) (m : List Host.Cell) (a : Nat) (b : Byte) (c : Nat) :
    Memory.read p (Memory.write p m a b) c = if c = a then b else Memory.read p m c := by
  unfold Memory.write
  split
  · next hb =>
    rw [Memory.read, Memory.lookup_erase]
    by_cases hc : c = a
    · subst hc; simp [hb]
    · simp [hc, Memory.read]
  · rw [Memory.read, Memory.lookup_insert]
    by_cases hc : c = a
    · simp [hc]
    · simp [hc, Memory.read]

theorem Memory.mem_insert {m : List Host.Cell} {a : Nat} {b : Byte} {c : Host.Cell}
    (h : c ∈ Memory.insert m a b) : c = (a, b) ∨ c ∈ m := by
  induction m with
  | nil => simpa [Memory.insert] using h
  | cons e m ih =>
    obtain ⟨k, d⟩ := e
    simp only [Memory.insert] at h
    split at h
    · simpa using h
    · split at h
      · rcases List.mem_cons.mp h with h | h
        · exact .inl h
        · exact .inr (by simp [h])
      · rcases List.mem_cons.mp h with h | h
        · exact .inr (by simp [h])
        · rcases ih h with h | h
          · exact .inl h
          · exact .inr (by simp [h])

theorem Memory.mem_erase {m : List Host.Cell} {a : Nat} {c : Host.Cell} (h : c ∈ Memory.erase m a) : c ∈ m := by
  induction m with
  | nil => simp [Memory.erase] at h
  | cons e m ih =>
    obtain ⟨k, d⟩ := e
    simp only [Memory.erase] at h
    split at h
    · simp [ih h]
    · rcases List.mem_cons.mp h with h | h
      · simp [h]
      · simp [ih h]

theorem Memory.rising_insert {m : List Host.Cell} (hm : Memory.rising m = true) (a : Nat) (b : Byte) :
    Memory.rising (Memory.insert m a b) = true := by
  induction m with
  | nil => rfl
  | cons e m ih =>
    obtain ⟨k, d⟩ := e
    have hlt := Memory.rising_head_lt hm
    simp only [Memory.insert]
    split
    · next h =>
      refine Memory.rising_cons hm fun c hc => ?_
      rcases List.mem_cons.mp hc with rfl | hc
      · exact h
      · exact lt_trans h (hlt c hc)
    · split
      · next h => subst h; exact Memory.rising_cons (Memory.rising_tail hm) hlt
      · next h1 h2 =>
        refine Memory.rising_cons (ih (Memory.rising_tail hm)) fun c hc => ?_
        rcases Memory.mem_insert hc with rfl | hc
        · show k < a; omega
        · exact hlt c hc

theorem Memory.rising_erase {m : List Host.Cell} (hm : Memory.rising m = true) (a : Nat) :
    Memory.rising (Memory.erase m a) = true := by
  induction m with
  | nil => rfl
  | cons e m ih =>
    obtain ⟨k, d⟩ := e
    simp only [Memory.erase]
    split
    · exact ih (Memory.rising_tail hm)
    · exact Memory.rising_cons (ih (Memory.rising_tail hm))
        fun c hc => Memory.rising_head_lt hm c (Memory.mem_erase hc)

theorem Memory.rising_write {m : List Host.Cell} (hm : Memory.rising m = true) (p : Params) (a : Nat) (b : Byte) :
    Memory.rising (Memory.write p m a b) = true := by
  unfold Memory.write
  split
  · exact Memory.rising_erase hm a
  · exact Memory.rising_insert hm a b

/-- A write inside the address space keeps the canonical form. -/
theorem Memory.wf_write {p : Params} {m : List Host.Cell} (hm : Memory.wf p m = true) {a : Nat}
    (ha : a < memSize) (b : Byte) : Memory.wf p (Memory.write p m a b) = true := by
  obtain ⟨hr, hall⟩ := Memory.wf_iff.mp hm
  refine Memory.wf_iff.mpr ⟨Memory.rising_write hr p a b, fun c hc => ?_⟩
  unfold Memory.write at hc
  split at hc
  · exact hall c (Memory.mem_erase hc)
  · next hb =>
    rcases Memory.mem_insert hc with rfl | hc
    · exact ⟨ha, hb⟩
    · exact hall c hc

theorem Memory.rising_writeList (p : Params) (bs : List Byte) {m : List Host.Cell}
    (hm : Memory.rising m = true) (a : Nat) : Memory.rising (Memory.writeList p m a bs) = true := by
  induction bs generalizing m a with
  | nil => exact hm
  | cons b bs ih => exact ih (Memory.rising_write hm p a b) (a + 1)

/-- A run of writes inside the address space keeps the canonical form. -/
theorem Memory.wf_writeList {p : Params} (bs : List Byte) {m : List Host.Cell} (hm : Memory.wf p m = true)
    {a : Nat} (ha : a + bs.length ≤ memSize) : Memory.wf p (Memory.writeList p m a bs) = true := by
  induction bs generalizing m a with
  | nil => exact hm
  | cons b bs ih =>
    simp only [List.length_cons] at ha
    exact ih (Memory.wf_write hm (by omega) b) (by omega)

/-- Read after a run of writes: byte `c - a` of the run inside it, every other address as before. -/
theorem Memory.read_writeList (p : Params) (bs : List Byte) (m : List Host.Cell) (a c : Nat) : Memory.read p (Memory.writeList p m a bs) c =
      if h : a ≤ c ∧ c < a + bs.length then bs[c - a]'(by omega) else Memory.read p m c := by
  induction bs generalizing m a with
  | nil => simp [Memory.writeList]
  | cons b bs ih =>
    rw [Memory.writeList, ih, Memory.read_write]
    simp only [List.length_cons]
    by_cases hca : c = a
    · subst hca; simp
    · by_cases hin : a + 1 ≤ c ∧ c < a + 1 + bs.length
      · have h2 : a ≤ c ∧ c < a + (bs.length + 1) := by omega
        rw [dif_pos hin, dif_pos h2]
        have hsub : c - a = (c - (a + 1)) + 1 := by omega
        simp [hsub]
      · have h2 : ¬(a ≤ c ∧ c < a + (bs.length + 1)) := by omega
        rw [dif_neg hin, dif_neg h2, if_neg hca]

/-- Canonical memories that read alike at every address are equal lists. -/
theorem Memory.ext_of_read {p : Params} {m m' : List Host.Cell} (hm : Memory.wf p m = true)
    (hm' : Memory.wf p m' = true) (h : ∀ a, Memory.read p m a = Memory.read p m' a) : m = m' := by
  induction m generalizing m' with
  | nil =>
    cases m' with
    | nil => rfl
    | cons e m' =>
      obtain ⟨k, d⟩ := e
      have h1 := h k
      have h2 := ((Memory.wf_iff.mp hm').2 (k, d) (by simp)).2
      simp [Memory.read, Memory.lookup] at h1
      exact absurd h1.symm h2
  | cons e m ih =>
    obtain ⟨k, d⟩ := e
    have hk := ((Memory.wf_iff.mp hm).2 (k, d) (by simp)).2
    have hkread : Memory.read p ((k, d) :: m) k = d := by simp [Memory.read, Memory.lookup]
    cases m' with
    | nil =>
      have h1 := h k
      rw [hkread] at h1
      exact absurd h1 hk
    | cons e' m' =>
      obtain ⟨k', d'⟩ := e'
      have hk' := ((Memory.wf_iff.mp hm').2 (k', d') (by simp)).2
      have hkread' : Memory.read p ((k', d') :: m') k' = d' := by simp [Memory.read, Memory.lookup]
      have hlt := Memory.rising_head_lt (Memory.wf_rising hm)
      have hlt' := Memory.rising_head_lt (Memory.wf_rising hm')
      have hkk : k = k' := by
        rcases lt_trichotomy k k' with hl | he | hl
        · exfalso
          have h1 := h k
          rw [hkread, Memory.read, Memory.lookup_eq_none_of_lt (m := (k', d') :: m')] at h1
          · exact hk h1
          · intro c hc
            rcases List.mem_cons.mp hc with rfl | hc
            · exact hl
            · exact lt_trans hl (hlt' c hc)
        · exact he
        · exfalso
          have h1 := h k'
          rw [hkread', Memory.read, Memory.lookup_eq_none_of_lt (m := (k, d) :: m)] at h1
          · exact hk' h1.symm
          · intro c hc
            rcases List.mem_cons.mp hc with rfl | hc
            · exact hl
            · exact lt_trans hl (hlt c hc)
      subst hkk
      have hd : d = d' := by rw [← hkread, h k, hkread']
      subst hd
      have htail : ∀ {d : Byte} {m : List Host.Cell}, Memory.wf p ((k, d) :: m) = true → Memory.wf p m = true :=
        fun hw => Memory.wf_iff.mpr ⟨Memory.rising_tail (Memory.wf_rising hw),
          fun c hc => (Memory.wf_iff.mp hw).2 c (by simp [hc])⟩
      rw [ih (htail hm) (htail hm')]
      intro a
      by_cases ha : k = a
      · subst ha
        simp [Memory.read, Memory.lookup_eq_none_of_lt hlt, Memory.lookup_eq_none_of_lt hlt']
      · have := h a
        simpa [Memory.read, Memory.lookup, ha] using this

/-- The program region's unlisted bytes are 0: the font lies below it (R6). -/
theorem Memory.initial_of_progStart_le (p : Params) {a : Nat} (ha : progStart ≤ a) : Memory.initial p a = 0 := by
  have := p.fontBase.isLt
  unfold Memory.initial
  rw [dif_neg]
  simp only [fontLen, progStart] at *
  omega

end Sys2Proof.Machine
end

