-- ==== Sys2Proof/Laws/State.lean ====
section
/-! SUPPORT. One lemma per field per update of the state, so that no proof unfolds a record update. -/

namespace Sys2Proof.Machine

variable (s : State)

/-! `State.setReg` -/

@[simp] theorem State.setReg_params (x : Nibble) (b : Byte) : (s.setReg x b).params = s.params := rfl
@[simp] theorem State.setReg_iReg (x : Nibble) (b : Byte) : (s.setReg x b).iReg = s.iReg := rfl
@[simp] theorem State.setReg_pc (x : Nibble) (b : Byte) : (s.setReg x b).pc = s.pc := rfl
@[simp] theorem State.setReg_dt (x : Nibble) (b : Byte) : (s.setReg x b).dt = s.dt := rfl
@[simp] theorem State.setReg_st (x : Nibble) (b : Byte) : (s.setReg x b).st = s.st := rfl
@[simp] theorem State.setReg_stack (x : Nibble) (b : Byte) : (s.setReg x b).stack = s.stack := rfl
@[simp] theorem State.setReg_mem (x : Nibble) (b : Byte) : (s.setReg x b).mem = s.mem := rfl
@[simp] theorem State.setReg_display (x : Nibble) (b : Byte) : (s.setReg x b).display = s.display := rfl
@[simp] theorem State.setReg_kbdMask (x : Nibble) (b : Byte) : (s.setReg x b).kbdMask = s.kbdMask := rfl
@[simp] theorem State.setReg_run (x : Nibble) (b : Byte) : (s.setReg x b).run = s.run := rfl
@[simp] theorem State.setReg_faults (x : Nibble) (b : Byte) : (s.setReg x b).faults = s.faults := rfl
@[simp] theorem State.setReg_slot (x : Nibble) (b : Byte) : (s.setReg x b).slot = s.slot := rfl
@[simp] theorem State.setReg_loop (x : Nibble) (b : Byte) : (s.setReg x b).loop = s.loop := rfl
@[simp] theorem State.setReg_rndDraws (x : Nibble) (b : Byte) : (s.setReg x b).rndDraws = s.rndDraws := rfl
@[simp] theorem State.setReg_keyDraws (x : Nibble) (b : Byte) : (s.setReg x b).keyDraws = s.keyDraws := rfl
@[simp] theorem State.setReg_pollDraws (x : Nibble) (b : Byte) : (s.setReg x b).pollDraws = s.pollDraws := rfl
@[simp] theorem State.setReg_closeDraws (x : Nibble) (b : Byte) : (s.setReg x b).closeDraws = s.closeDraws := rfl
@[simp] theorem State.setReg_beeps (x : Nibble) (b : Byte) : (s.setReg x b).beeps = s.beeps := rfl
@[simp] theorem State.setReg_presents (x : Nibble) (b : Byte) : (s.setReg x b).presents = s.presents := rfl

/-! `State.setI` -/

@[simp] theorem State.setI_params (w : Word) : (s.setI w).params = s.params := rfl
@[simp] theorem State.setI_v (w : Word) : (s.setI w).v = s.v := rfl
@[simp] theorem State.setI_iReg (w : Word) :
    (s.setI w).iReg = w := rfl
@[simp] theorem State.setI_pc (w : Word) : (s.setI w).pc = s.pc := rfl
@[simp] theorem State.setI_dt (w : Word) : (s.setI w).dt = s.dt := rfl
@[simp] theorem State.setI_st (w : Word) : (s.setI w).st = s.st := rfl
@[simp] theorem State.setI_stack (w : Word) : (s.setI w).stack = s.stack := rfl
@[simp] theorem State.setI_mem (w : Word) : (s.setI w).mem = s.mem := rfl
@[simp] theorem State.setI_display (w : Word) : (s.setI w).display = s.display := rfl
@[simp] theorem State.setI_kbdMask (w : Word) : (s.setI w).kbdMask = s.kbdMask := rfl
@[simp] theorem State.setI_run (w : Word) : (s.setI w).run = s.run := rfl
@[simp] theorem State.setI_faults (w : Word) : (s.setI w).faults = s.faults := rfl
@[simp] theorem State.setI_slot (w : Word) : (s.setI w).slot = s.slot := rfl
@[simp] theorem State.setI_loop (w : Word) : (s.setI w).loop = s.loop := rfl
@[simp] theorem State.setI_rndDraws (w : Word) : (s.setI w).rndDraws = s.rndDraws := rfl
@[simp] theorem State.setI_keyDraws (w : Word) : (s.setI w).keyDraws = s.keyDraws := rfl
@[simp] theorem State.setI_pollDraws (w : Word) : (s.setI w).pollDraws = s.pollDraws := rfl
@[simp] theorem State.setI_closeDraws (w : Word) : (s.setI w).closeDraws = s.closeDraws := rfl
@[simp] theorem State.setI_beeps (w : Word) : (s.setI w).beeps = s.beeps := rfl
@[simp] theorem State.setI_presents (w : Word) : (s.setI w).presents = s.presents := rfl

/-! `State.setMem` -/

@[simp] theorem State.setMem_params (m : List Host.Cell) : (s.setMem m).params = s.params := rfl
@[simp] theorem State.setMem_v (m : List Host.Cell) : (s.setMem m).v = s.v := rfl
@[simp] theorem State.setMem_iReg (m : List Host.Cell) : (s.setMem m).iReg = s.iReg := rfl
@[simp] theorem State.setMem_pc (m : List Host.Cell) : (s.setMem m).pc = s.pc := rfl
@[simp] theorem State.setMem_dt (m : List Host.Cell) : (s.setMem m).dt = s.dt := rfl
@[simp] theorem State.setMem_st (m : List Host.Cell) : (s.setMem m).st = s.st := rfl
@[simp] theorem State.setMem_stack (m : List Host.Cell) : (s.setMem m).stack = s.stack := rfl
@[simp] theorem State.setMem_mem (m : List Host.Cell) :
    (s.setMem m).mem = m := rfl
@[simp] theorem State.setMem_display (m : List Host.Cell) : (s.setMem m).display = s.display := rfl
@[simp] theorem State.setMem_kbdMask (m : List Host.Cell) : (s.setMem m).kbdMask = s.kbdMask := rfl
@[simp] theorem State.setMem_run (m : List Host.Cell) : (s.setMem m).run = s.run := rfl
@[simp] theorem State.setMem_faults (m : List Host.Cell) : (s.setMem m).faults = s.faults := rfl
@[simp] theorem State.setMem_slot (m : List Host.Cell) : (s.setMem m).slot = s.slot := rfl
@[simp] theorem State.setMem_loop (m : List Host.Cell) : (s.setMem m).loop = s.loop := rfl
@[simp] theorem State.setMem_rndDraws (m : List Host.Cell) : (s.setMem m).rndDraws = s.rndDraws := rfl
@[simp] theorem State.setMem_keyDraws (m : List Host.Cell) : (s.setMem m).keyDraws = s.keyDraws := rfl
@[simp] theorem State.setMem_pollDraws (m : List Host.Cell) : (s.setMem m).pollDraws = s.pollDraws := rfl
@[simp] theorem State.setMem_closeDraws (m : List Host.Cell) : (s.setMem m).closeDraws = s.closeDraws := rfl
@[simp] theorem State.setMem_beeps (m : List Host.Cell) : (s.setMem m).beeps = s.beeps := rfl
@[simp] theorem State.setMem_presents (m : List Host.Cell) : (s.setMem m).presents = s.presents := rfl

/-! `State.setStack` -/

@[simp] theorem State.setStack_params (l : List Word) : (s.setStack l).params = s.params := rfl
@[simp] theorem State.setStack_v (l : List Word) : (s.setStack l).v = s.v := rfl
@[simp] theorem State.setStack_iReg (l : List Word) : (s.setStack l).iReg = s.iReg := rfl
@[simp] theorem State.setStack_pc (l : List Word) : (s.setStack l).pc = s.pc := rfl
@[simp] theorem State.setStack_dt (l : List Word) : (s.setStack l).dt = s.dt := rfl
@[simp] theorem State.setStack_st (l : List Word) : (s.setStack l).st = s.st := rfl
@[simp] theorem State.setStack_stack (l : List Word) :
    (s.setStack l).stack = l := rfl
@[simp] theorem State.setStack_mem (l : List Word) : (s.setStack l).mem = s.mem := rfl
@[simp] theorem State.setStack_display (l : List Word) : (s.setStack l).display = s.display := rfl
@[simp] theorem State.setStack_kbdMask (l : List Word) : (s.setStack l).kbdMask = s.kbdMask := rfl
@[simp] theorem State.setStack_run (l : List Word) : (s.setStack l).run = s.run := rfl
@[simp] theorem State.setStack_faults (l : List Word) : (s.setStack l).faults = s.faults := rfl
@[simp] theorem State.setStack_slot (l : List Word) : (s.setStack l).slot = s.slot := rfl
@[simp] theorem State.setStack_loop (l : List Word) : (s.setStack l).loop = s.loop := rfl
@[simp] theorem State.setStack_rndDraws (l : List Word) : (s.setStack l).rndDraws = s.rndDraws := rfl
@[simp] theorem State.setStack_keyDraws (l : List Word) : (s.setStack l).keyDraws = s.keyDraws := rfl
@[simp] theorem State.setStack_pollDraws (l : List Word) : (s.setStack l).pollDraws = s.pollDraws := rfl
@[simp] theorem State.setStack_closeDraws (l : List Word) : (s.setStack l).closeDraws = s.closeDraws := rfl
@[simp] theorem State.setStack_beeps (l : List Word) : (s.setStack l).beeps = s.beeps := rfl
@[simp] theorem State.setStack_presents (l : List Word) : (s.setStack l).presents = s.presents := rfl

/-! `State.setPc` -/

@[simp] theorem State.setPc_params (w : Word) : (s.setPc w).params = s.params := rfl
@[simp] theorem State.setPc_v (w : Word) : (s.setPc w).v = s.v := rfl
@[simp] theorem State.setPc_iReg (w : Word) : (s.setPc w).iReg = s.iReg := rfl
@[simp] theorem State.setPc_pc (w : Word) :
    (s.setPc w).pc = w := rfl
@[simp] theorem State.setPc_dt (w : Word) : (s.setPc w).dt = s.dt := rfl
@[simp] theorem State.setPc_st (w : Word) : (s.setPc w).st = s.st := rfl
@[simp] theorem State.setPc_stack (w : Word) : (s.setPc w).stack = s.stack := rfl
@[simp] theorem State.setPc_mem (w : Word) : (s.setPc w).mem = s.mem := rfl
@[simp] theorem State.setPc_display (w : Word) : (s.setPc w).display = s.display := rfl
@[simp] theorem State.setPc_kbdMask (w : Word) : (s.setPc w).kbdMask = s.kbdMask := rfl
@[simp] theorem State.setPc_run (w : Word) : (s.setPc w).run = s.run := rfl
@[simp] theorem State.setPc_faults (w : Word) : (s.setPc w).faults = s.faults := rfl
@[simp] theorem State.setPc_slot (w : Word) : (s.setPc w).slot = s.slot := rfl
@[simp] theorem State.setPc_loop (w : Word) : (s.setPc w).loop = s.loop := rfl
@[simp] theorem State.setPc_rndDraws (w : Word) : (s.setPc w).rndDraws = s.rndDraws := rfl
@[simp] theorem State.setPc_keyDraws (w : Word) : (s.setPc w).keyDraws = s.keyDraws := rfl
@[simp] theorem State.setPc_pollDraws (w : Word) : (s.setPc w).pollDraws = s.pollDraws := rfl
@[simp] theorem State.setPc_closeDraws (w : Word) : (s.setPc w).closeDraws = s.closeDraws := rfl
@[simp] theorem State.setPc_beeps (w : Word) : (s.setPc w).beeps = s.beeps := rfl
@[simp] theorem State.setPc_presents (w : Word) : (s.setPc w).presents = s.presents := rfl

/-! `State.setDt` -/

@[simp] theorem State.setDt_params (b : Byte) : (s.setDt b).params = s.params := rfl
@[simp] theorem State.setDt_v (b : Byte) : (s.setDt b).v = s.v := rfl
@[simp] theorem State.setDt_iReg (b : Byte) : (s.setDt b).iReg = s.iReg := rfl
@[simp] theorem State.setDt_pc (b : Byte) : (s.setDt b).pc = s.pc := rfl
@[simp] theorem State.setDt_dt (b : Byte) :
    (s.setDt b).dt = b := rfl
@[simp] theorem State.setDt_st (b : Byte) : (s.setDt b).st = s.st := rfl
@[simp] theorem State.setDt_stack (b : Byte) : (s.setDt b).stack = s.stack := rfl
@[simp] theorem State.setDt_mem (b : Byte) : (s.setDt b).mem = s.mem := rfl
@[simp] theorem State.setDt_display (b : Byte) : (s.setDt b).display = s.display := rfl
@[simp] theorem State.setDt_kbdMask (b : Byte) : (s.setDt b).kbdMask = s.kbdMask := rfl
@[simp] theorem State.setDt_run (b : Byte) : (s.setDt b).run = s.run := rfl
@[simp] theorem State.setDt_faults (b : Byte) : (s.setDt b).faults = s.faults := rfl
@[simp] theorem State.setDt_slot (b : Byte) : (s.setDt b).slot = s.slot := rfl
@[simp] theorem State.setDt_loop (b : Byte) : (s.setDt b).loop = s.loop := rfl
@[simp] theorem State.setDt_rndDraws (b : Byte) : (s.setDt b).rndDraws = s.rndDraws := rfl
@[simp] theorem State.setDt_keyDraws (b : Byte) : (s.setDt b).keyDraws = s.keyDraws := rfl
@[simp] theorem State.setDt_pollDraws (b : Byte) : (s.setDt b).pollDraws = s.pollDraws := rfl
@[simp] theorem State.setDt_closeDraws (b : Byte) : (s.setDt b).closeDraws = s.closeDraws := rfl
@[simp] theorem State.setDt_beeps (b : Byte) : (s.setDt b).beeps = s.beeps := rfl
@[simp] theorem State.setDt_presents (b : Byte) : (s.setDt b).presents = s.presents := rfl

/-! `State.setSt` -/

@[simp] theorem State.setSt_params (b : Byte) : (s.setSt b).params = s.params := rfl
@[simp] theorem State.setSt_v (b : Byte) : (s.setSt b).v = s.v := rfl
@[simp] theorem State.setSt_iReg (b : Byte) : (s.setSt b).iReg = s.iReg := rfl
@[simp] theorem State.setSt_pc (b : Byte) : (s.setSt b).pc = s.pc := rfl
@[simp] theorem State.setSt_dt (b : Byte) : (s.setSt b).dt = s.dt := rfl
@[simp] theorem State.setSt_st (b : Byte) :
    (s.setSt b).st = b := rfl
@[simp] theorem State.setSt_stack (b : Byte) : (s.setSt b).stack = s.stack := rfl
@[simp] theorem State.setSt_mem (b : Byte) : (s.setSt b).mem = s.mem := rfl
@[simp] theorem State.setSt_display (b : Byte) : (s.setSt b).display = s.display := rfl
@[simp] theorem State.setSt_kbdMask (b : Byte) : (s.setSt b).kbdMask = s.kbdMask := rfl
@[simp] theorem State.setSt_run (b : Byte) : (s.setSt b).run = s.run := rfl
@[simp] theorem State.setSt_faults (b : Byte) : (s.setSt b).faults = s.faults := rfl
@[simp] theorem State.setSt_slot (b : Byte) : (s.setSt b).slot = s.slot := rfl
@[simp] theorem State.setSt_loop (b : Byte) : (s.setSt b).loop = s.loop := rfl
@[simp] theorem State.setSt_rndDraws (b : Byte) : (s.setSt b).rndDraws = s.rndDraws := rfl
@[simp] theorem State.setSt_keyDraws (b : Byte) : (s.setSt b).keyDraws = s.keyDraws := rfl
@[simp] theorem State.setSt_pollDraws (b : Byte) : (s.setSt b).pollDraws = s.pollDraws := rfl
@[simp] theorem State.setSt_closeDraws (b : Byte) : (s.setSt b).closeDraws = s.closeDraws := rfl
@[simp] theorem State.setSt_beeps (b : Byte) : (s.setSt b).beeps = s.beeps := rfl
@[simp] theorem State.setSt_presents (b : Byte) : (s.setSt b).presents = s.presents := rfl

/-! `State.setDisplay` -/

@[simp] theorem State.setDisplay_params (d : Grid) : (s.setDisplay d).params = s.params := rfl
@[simp] theorem State.setDisplay_v (d : Grid) : (s.setDisplay d).v = s.v := rfl
@[simp] theorem State.setDisplay_iReg (d : Grid) : (s.setDisplay d).iReg = s.iReg := rfl
@[simp] theorem State.setDisplay_pc (d : Grid) : (s.setDisplay d).pc = s.pc := rfl
@[simp] theorem State.setDisplay_dt (d : Grid) : (s.setDisplay d).dt = s.dt := rfl
@[simp] theorem State.setDisplay_st (d : Grid) : (s.setDisplay d).st = s.st := rfl
@[simp] theorem State.setDisplay_stack (d : Grid) : (s.setDisplay d).stack = s.stack := rfl
@[simp] theorem State.setDisplay_mem (d : Grid) : (s.setDisplay d).mem = s.mem := rfl
@[simp] theorem State.setDisplay_display (d : Grid) :
    (s.setDisplay d).display = d := rfl
@[simp] theorem State.setDisplay_kbdMask (d : Grid) : (s.setDisplay d).kbdMask = s.kbdMask := rfl
@[simp] theorem State.setDisplay_run (d : Grid) : (s.setDisplay d).run = s.run := rfl
@[simp] theorem State.setDisplay_faults (d : Grid) : (s.setDisplay d).faults = s.faults := rfl
@[simp] theorem State.setDisplay_slot (d : Grid) : (s.setDisplay d).slot = s.slot := rfl
@[simp] theorem State.setDisplay_loop (d : Grid) : (s.setDisplay d).loop = s.loop := rfl
@[simp] theorem State.setDisplay_rndDraws (d : Grid) : (s.setDisplay d).rndDraws = s.rndDraws := rfl
@[simp] theorem State.setDisplay_keyDraws (d : Grid) : (s.setDisplay d).keyDraws = s.keyDraws := rfl
@[simp] theorem State.setDisplay_pollDraws (d : Grid) : (s.setDisplay d).pollDraws = s.pollDraws := rfl
@[simp] theorem State.setDisplay_closeDraws (d : Grid) : (s.setDisplay d).closeDraws = s.closeDraws := rfl
@[simp] theorem State.setDisplay_beeps (d : Grid) : (s.setDisplay d).beeps = s.beeps := rfl
@[simp] theorem State.setDisplay_presents (d : Grid) : (s.setDisplay d).presents = s.presents := rfl

/-! `State.advance` -/

@[simp] theorem State.advance_params : (s.advance).params = s.params := rfl
@[simp] theorem State.advance_v : (s.advance).v = s.v := rfl
@[simp] theorem State.advance_iReg : (s.advance).iReg = s.iReg := rfl
@[simp] theorem State.advance_pc :
    (s.advance).pc = s.pc + 2 := rfl
@[simp] theorem State.advance_dt : (s.advance).dt = s.dt := rfl
@[simp] theorem State.advance_st : (s.advance).st = s.st := rfl
@[simp] theorem State.advance_stack : (s.advance).stack = s.stack := rfl
@[simp] theorem State.advance_mem : (s.advance).mem = s.mem := rfl
@[simp] theorem State.advance_display : (s.advance).display = s.display := rfl
@[simp] theorem State.advance_kbdMask : (s.advance).kbdMask = s.kbdMask := rfl
@[simp] theorem State.advance_run : (s.advance).run = s.run := rfl
@[simp] theorem State.advance_faults : (s.advance).faults = s.faults := rfl
@[simp] theorem State.advance_slot : (s.advance).slot = s.slot := rfl
@[simp] theorem State.advance_loop : (s.advance).loop = s.loop := rfl
@[simp] theorem State.advance_rndDraws : (s.advance).rndDraws = s.rndDraws := rfl
@[simp] theorem State.advance_keyDraws : (s.advance).keyDraws = s.keyDraws := rfl
@[simp] theorem State.advance_pollDraws : (s.advance).pollDraws = s.pollDraws := rfl
@[simp] theorem State.advance_closeDraws : (s.advance).closeDraws = s.closeDraws := rfl
@[simp] theorem State.advance_beeps : (s.advance).beeps = s.beeps := rfl
@[simp] theorem State.advance_presents : (s.advance).presents = s.presents := rfl

/-! `State.countSlot` -/

@[simp] theorem State.countSlot_params : (s.countSlot).params = s.params := rfl
@[simp] theorem State.countSlot_v : (s.countSlot).v = s.v := rfl
@[simp] theorem State.countSlot_iReg : (s.countSlot).iReg = s.iReg := rfl
@[simp] theorem State.countSlot_pc : (s.countSlot).pc = s.pc := rfl
@[simp] theorem State.countSlot_dt : (s.countSlot).dt = s.dt := rfl
@[simp] theorem State.countSlot_st : (s.countSlot).st = s.st := rfl
@[simp] theorem State.countSlot_stack : (s.countSlot).stack = s.stack := rfl
@[simp] theorem State.countSlot_mem : (s.countSlot).mem = s.mem := rfl
@[simp] theorem State.countSlot_display : (s.countSlot).display = s.display := rfl
@[simp] theorem State.countSlot_kbdMask : (s.countSlot).kbdMask = s.kbdMask := rfl
@[simp] theorem State.countSlot_run : (s.countSlot).run = s.run := rfl
@[simp] theorem State.countSlot_faults : (s.countSlot).faults = s.faults := rfl
@[simp] theorem State.countSlot_slot :
    (s.countSlot).slot = s.slot + 1 := rfl
@[simp] theorem State.countSlot_loop : (s.countSlot).loop = s.loop := rfl
@[simp] theorem State.countSlot_rndDraws : (s.countSlot).rndDraws = s.rndDraws := rfl
@[simp] theorem State.countSlot_keyDraws : (s.countSlot).keyDraws = s.keyDraws := rfl
@[simp] theorem State.countSlot_pollDraws : (s.countSlot).pollDraws = s.pollDraws := rfl
@[simp] theorem State.countSlot_closeDraws : (s.countSlot).closeDraws = s.closeDraws := rfl
@[simp] theorem State.countSlot_beeps : (s.countSlot).beeps = s.beeps := rfl
@[simp] theorem State.countSlot_presents : (s.countSlot).presents = s.presents := rfl

/-! `State.raise` -/

@[simp] theorem State.raise_params (f : Failure) (p : Word) (w : Option Word) : (s.raise f p w).params = s.params := rfl
@[simp] theorem State.raise_v (f : Failure) (p : Word) (w : Option Word) : (s.raise f p w).v = s.v := rfl
@[simp] theorem State.raise_iReg (f : Failure) (p : Word) (w : Option Word) : (s.raise f p w).iReg = s.iReg := rfl
@[simp] theorem State.raise_pc (f : Failure) (p : Word) (w : Option Word) : (s.raise f p w).pc = s.pc := rfl
@[simp] theorem State.raise_dt (f : Failure) (p : Word) (w : Option Word) : (s.raise f p w).dt = s.dt := rfl
@[simp] theorem State.raise_st (f : Failure) (p : Word) (w : Option Word) : (s.raise f p w).st = s.st := rfl
@[simp] theorem State.raise_stack (f : Failure) (p : Word) (w : Option Word) : (s.raise f p w).stack = s.stack := rfl
@[simp] theorem State.raise_mem (f : Failure) (p : Word) (w : Option Word) : (s.raise f p w).mem = s.mem := rfl
@[simp] theorem State.raise_display (f : Failure) (p : Word) (w : Option Word) : (s.raise f p w).display = s.display := rfl
@[simp] theorem State.raise_kbdMask (f : Failure) (p : Word) (w : Option Word) : (s.raise f p w).kbdMask = s.kbdMask := rfl
@[simp] theorem State.raise_run (f : Failure) (p : Word) (w : Option Word) :
    (s.raise f p w).run = if f.halts s.params.haltOnFault then .halted else s.run := rfl
@[simp] theorem State.raise_faults (f : Failure) (p : Word) (w : Option Word) :
    (s.raise f p w).faults = s.faults ++ [{ failure := f, pc0 := some p, word := w }] := rfl
@[simp] theorem State.raise_slot (f : Failure) (p : Word) (w : Option Word) : (s.raise f p w).slot = s.slot := rfl
@[simp] theorem State.raise_loop (f : Failure) (p : Word) (w : Option Word) : (s.raise f p w).loop = s.loop := rfl
@[simp] theorem State.raise_rndDraws (f : Failure) (p : Word) (w : Option Word) : (s.raise f p w).rndDraws = s.rndDraws := rfl
@[simp] theorem State.raise_keyDraws (f : Failure) (p : Word) (w : Option Word) : (s.raise f p w).keyDraws = s.keyDraws := rfl
@[simp] theorem State.raise_pollDraws (f : Failure) (p : Word) (w : Option Word) : (s.raise f p w).pollDraws = s.pollDraws := rfl
@[simp] theorem State.raise_closeDraws (f : Failure) (p : Word) (w : Option Word) : (s.raise f p w).closeDraws = s.closeDraws := rfl
@[simp] theorem State.raise_beeps (f : Failure) (p : Word) (w : Option Word) : (s.raise f p w).beeps = s.beeps := rfl
@[simp] theorem State.raise_presents (f : Failure) (p : Word) (w : Option Word) : (s.raise f p w).presents = s.presents := rfl

/-! `State.fail` -/

@[simp] theorem State.fail_params (i : Instr) (f : Failure) : (s.fail i f).params = s.params := rfl
@[simp] theorem State.fail_v (i : Instr) (f : Failure) : (s.fail i f).v = s.v := rfl
@[simp] theorem State.fail_iReg (i : Instr) (f : Failure) : (s.fail i f).iReg = s.iReg := rfl
@[simp] theorem State.fail_pc (i : Instr) (f : Failure) : (s.fail i f).pc = s.pc := rfl
@[simp] theorem State.fail_dt (i : Instr) (f : Failure) : (s.fail i f).dt = s.dt := rfl
@[simp] theorem State.fail_st (i : Instr) (f : Failure) : (s.fail i f).st = s.st := rfl
@[simp] theorem State.fail_stack (i : Instr) (f : Failure) : (s.fail i f).stack = s.stack := rfl
@[simp] theorem State.fail_mem (i : Instr) (f : Failure) : (s.fail i f).mem = s.mem := rfl
@[simp] theorem State.fail_display (i : Instr) (f : Failure) : (s.fail i f).display = s.display := rfl
@[simp] theorem State.fail_kbdMask (i : Instr) (f : Failure) : (s.fail i f).kbdMask = s.kbdMask := rfl
@[simp] theorem State.fail_run (i : Instr) (f : Failure) :
    (s.fail i f).run = if f.halts s.params.haltOnFault then .halted else s.run := rfl
@[simp] theorem State.fail_faults (i : Instr) (f : Failure) :
    (s.fail i f).faults = s.faults ++ [{ failure := f, pc0 := some (s.pc - 2), word := some (encode i) }] := rfl
@[simp] theorem State.fail_slot (i : Instr) (f : Failure) : (s.fail i f).slot = s.slot := rfl
@[simp] theorem State.fail_loop (i : Instr) (f : Failure) : (s.fail i f).loop = s.loop := rfl
@[simp] theorem State.fail_rndDraws (i : Instr) (f : Failure) : (s.fail i f).rndDraws = s.rndDraws := rfl
@[simp] theorem State.fail_keyDraws (i : Instr) (f : Failure) : (s.fail i f).keyDraws = s.keyDraws := rfl
@[simp] theorem State.fail_pollDraws (i : Instr) (f : Failure) : (s.fail i f).pollDraws = s.pollDraws := rfl
@[simp] theorem State.fail_closeDraws (i : Instr) (f : Failure) : (s.fail i f).closeDraws = s.closeDraws := rfl
@[simp] theorem State.fail_beeps (i : Instr) (f : Failure) : (s.fail i f).beeps = s.beeps := rfl
@[simp] theorem State.fail_presents (i : Instr) (f : Failure) : (s.fail i f).presents = s.presents := rfl

/-! `State.drawRandom` -/

@[simp] theorem State.drawRandom_params : (s.drawRandom.2).params = s.params := rfl
@[simp] theorem State.drawRandom_v : (s.drawRandom.2).v = s.v := rfl
@[simp] theorem State.drawRandom_iReg : (s.drawRandom.2).iReg = s.iReg := rfl
@[simp] theorem State.drawRandom_pc : (s.drawRandom.2).pc = s.pc := rfl
@[simp] theorem State.drawRandom_dt : (s.drawRandom.2).dt = s.dt := rfl
@[simp] theorem State.drawRandom_st : (s.drawRandom.2).st = s.st := rfl
@[simp] theorem State.drawRandom_stack : (s.drawRandom.2).stack = s.stack := rfl
@[simp] theorem State.drawRandom_mem : (s.drawRandom.2).mem = s.mem := rfl
@[simp] theorem State.drawRandom_display : (s.drawRandom.2).display = s.display := rfl
@[simp] theorem State.drawRandom_kbdMask : (s.drawRandom.2).kbdMask = s.kbdMask := rfl
@[simp] theorem State.drawRandom_run : (s.drawRandom.2).run = s.run := rfl
@[simp] theorem State.drawRandom_faults : (s.drawRandom.2).faults = s.faults := rfl
@[simp] theorem State.drawRandom_slot : (s.drawRandom.2).slot = s.slot := rfl
@[simp] theorem State.drawRandom_loop : (s.drawRandom.2).loop = s.loop := rfl
@[simp] theorem State.drawRandom_rndDraws :
    (s.drawRandom.2).rndDraws = s.rndDraws + 1 := rfl
@[simp] theorem State.drawRandom_keyDraws : (s.drawRandom.2).keyDraws = s.keyDraws := rfl
@[simp] theorem State.drawRandom_pollDraws : (s.drawRandom.2).pollDraws = s.pollDraws := rfl
@[simp] theorem State.drawRandom_closeDraws : (s.drawRandom.2).closeDraws = s.closeDraws := rfl
@[simp] theorem State.drawRandom_beeps : (s.drawRandom.2).beeps = s.beeps := rfl
@[simp] theorem State.drawRandom_presents : (s.drawRandom.2).presents = s.presents := rfl

/-! `State.drawKeyRelease` -/

@[simp] theorem State.drawKeyRelease_params : (s.drawKeyRelease.2).params = s.params := rfl
@[simp] theorem State.drawKeyRelease_v : (s.drawKeyRelease.2).v = s.v := rfl
@[simp] theorem State.drawKeyRelease_iReg : (s.drawKeyRelease.2).iReg = s.iReg := rfl
@[simp] theorem State.drawKeyRelease_pc : (s.drawKeyRelease.2).pc = s.pc := rfl
@[simp] theorem State.drawKeyRelease_dt : (s.drawKeyRelease.2).dt = s.dt := rfl
@[simp] theorem State.drawKeyRelease_st : (s.drawKeyRelease.2).st = s.st := rfl
@[simp] theorem State.drawKeyRelease_stack : (s.drawKeyRelease.2).stack = s.stack := rfl
@[simp] theorem State.drawKeyRelease_mem : (s.drawKeyRelease.2).mem = s.mem := rfl
@[simp] theorem State.drawKeyRelease_display : (s.drawKeyRelease.2).display = s.display := rfl
@[simp] theorem State.drawKeyRelease_kbdMask : (s.drawKeyRelease.2).kbdMask = s.kbdMask := rfl
@[simp] theorem State.drawKeyRelease_run : (s.drawKeyRelease.2).run = s.run := rfl
@[simp] theorem State.drawKeyRelease_faults : (s.drawKeyRelease.2).faults = s.faults := rfl
@[simp] theorem State.drawKeyRelease_slot : (s.drawKeyRelease.2).slot = s.slot := rfl
@[simp] theorem State.drawKeyRelease_loop : (s.drawKeyRelease.2).loop = s.loop := rfl
@[simp] theorem State.drawKeyRelease_rndDraws : (s.drawKeyRelease.2).rndDraws = s.rndDraws := rfl
@[simp] theorem State.drawKeyRelease_keyDraws :
    (s.drawKeyRelease.2).keyDraws = s.keyDraws + 1 := rfl
@[simp] theorem State.drawKeyRelease_pollDraws : (s.drawKeyRelease.2).pollDraws = s.pollDraws := rfl
@[simp] theorem State.drawKeyRelease_closeDraws : (s.drawKeyRelease.2).closeDraws = s.closeDraws := rfl
@[simp] theorem State.drawKeyRelease_beeps : (s.drawKeyRelease.2).beeps = s.beeps := rfl
@[simp] theorem State.drawKeyRelease_presents : (s.drawKeyRelease.2).presents = s.presents := rfl

/-! `State.setWithFlag` -/

@[simp] theorem State.setWithFlag_params (x : Nibble) (r g : Byte) : (s.setWithFlag x r g).params = s.params := rfl
@[simp] theorem State.setWithFlag_iReg (x : Nibble) (r g : Byte) : (s.setWithFlag x r g).iReg = s.iReg := rfl
@[simp] theorem State.setWithFlag_pc (x : Nibble) (r g : Byte) : (s.setWithFlag x r g).pc = s.pc := rfl
@[simp] theorem State.setWithFlag_dt (x : Nibble) (r g : Byte) : (s.setWithFlag x r g).dt = s.dt := rfl
@[simp] theorem State.setWithFlag_st (x : Nibble) (r g : Byte) : (s.setWithFlag x r g).st = s.st := rfl
@[simp] theorem State.setWithFlag_stack (x : Nibble) (r g : Byte) : (s.setWithFlag x r g).stack = s.stack := rfl
@[simp] theorem State.setWithFlag_mem (x : Nibble) (r g : Byte) : (s.setWithFlag x r g).mem = s.mem := rfl
@[simp] theorem State.setWithFlag_display (x : Nibble) (r g : Byte) : (s.setWithFlag x r g).display = s.display := rfl
@[simp] theorem State.setWithFlag_kbdMask (x : Nibble) (r g : Byte) : (s.setWithFlag x r g).kbdMask = s.kbdMask := rfl
@[simp] theorem State.setWithFlag_run (x : Nibble) (r g : Byte) : (s.setWithFlag x r g).run = s.run := rfl
@[simp] theorem State.setWithFlag_faults (x : Nibble) (r g : Byte) : (s.setWithFlag x r g).faults = s.faults := rfl
@[simp] theorem State.setWithFlag_slot (x : Nibble) (r g : Byte) : (s.setWithFlag x r g).slot = s.slot := rfl
@[simp] theorem State.setWithFlag_loop (x : Nibble) (r g : Byte) : (s.setWithFlag x r g).loop = s.loop := rfl
@[simp] theorem State.setWithFlag_rndDraws (x : Nibble) (r g : Byte) : (s.setWithFlag x r g).rndDraws = s.rndDraws := rfl
@[simp] theorem State.setWithFlag_keyDraws (x : Nibble) (r g : Byte) : (s.setWithFlag x r g).keyDraws = s.keyDraws := rfl
@[simp] theorem State.setWithFlag_pollDraws (x : Nibble) (r g : Byte) : (s.setWithFlag x r g).pollDraws = s.pollDraws := rfl
@[simp] theorem State.setWithFlag_closeDraws (x : Nibble) (r g : Byte) : (s.setWithFlag x r g).closeDraws = s.closeDraws := rfl
@[simp] theorem State.setWithFlag_beeps (x : Nibble) (r g : Byte) : (s.setWithFlag x r g).beeps = s.beeps := rfl
@[simp] theorem State.setWithFlag_presents (x : Nibble) (r g : Byte) : (s.setWithFlag x r g).presents = s.presents := rfl

/-! `State.setLogic` -/

@[simp] theorem State.setLogic_params (x : Nibble) (r : Byte) : (s.setLogic x r).params = s.params := by
  unfold State.setLogic; split <;> rfl
@[simp] theorem State.setLogic_iReg (x : Nibble) (r : Byte) : (s.setLogic x r).iReg = s.iReg := by
  unfold State.setLogic; split <;> rfl
@[simp] theorem State.setLogic_pc (x : Nibble) (r : Byte) : (s.setLogic x r).pc = s.pc := by
  unfold State.setLogic; split <;> rfl
@[simp] theorem State.setLogic_dt (x : Nibble) (r : Byte) : (s.setLogic x r).dt = s.dt := by
  unfold State.setLogic; split <;> rfl
@[simp] theorem State.setLogic_st (x : Nibble) (r : Byte) : (s.setLogic x r).st = s.st := by
  unfold State.setLogic; split <;> rfl
@[simp] theorem State.setLogic_stack (x : Nibble) (r : Byte) : (s.setLogic x r).stack = s.stack := by
  unfold State.setLogic; split <;> rfl
@[simp] theorem State.setLogic_mem (x : Nibble) (r : Byte) : (s.setLogic x r).mem = s.mem := by
  unfold State.setLogic; split <;> rfl
@[simp] theorem State.setLogic_display (x : Nibble) (r : Byte) : (s.setLogic x r).display = s.display := by
  unfold State.setLogic; split <;> rfl
@[simp] theorem State.setLogic_kbdMask (x : Nibble) (r : Byte) : (s.setLogic x r).kbdMask = s.kbdMask := by
  unfold State.setLogic; split <;> rfl
@[simp] theorem State.setLogic_run (x : Nibble) (r : Byte) : (s.setLogic x r).run = s.run := by
  unfold State.setLogic; split <;> rfl
@[simp] theorem State.setLogic_faults (x : Nibble) (r : Byte) : (s.setLogic x r).faults = s.faults := by
  unfold State.setLogic; split <;> rfl
@[simp] theorem State.setLogic_slot (x : Nibble) (r : Byte) : (s.setLogic x r).slot = s.slot := by
  unfold State.setLogic; split <;> rfl
@[simp] theorem State.setLogic_loop (x : Nibble) (r : Byte) : (s.setLogic x r).loop = s.loop := by
  unfold State.setLogic; split <;> rfl
@[simp] theorem State.setLogic_rndDraws (x : Nibble) (r : Byte) : (s.setLogic x r).rndDraws = s.rndDraws := by
  unfold State.setLogic; split <;> rfl
@[simp] theorem State.setLogic_keyDraws (x : Nibble) (r : Byte) : (s.setLogic x r).keyDraws = s.keyDraws := by
  unfold State.setLogic; split <;> rfl
@[simp] theorem State.setLogic_pollDraws (x : Nibble) (r : Byte) : (s.setLogic x r).pollDraws = s.pollDraws := by
  unfold State.setLogic; split <;> rfl
@[simp] theorem State.setLogic_closeDraws (x : Nibble) (r : Byte) : (s.setLogic x r).closeDraws = s.closeDraws := by
  unfold State.setLogic; split <;> rfl
@[simp] theorem State.setLogic_beeps (x : Nibble) (r : Byte) : (s.setLogic x r).beeps = s.beeps := by
  unfold State.setLogic; split <;> rfl
@[simp] theorem State.setLogic_presents (x : Nibble) (r : Byte) : (s.setLogic x r).presents = s.presents := by
  unfold State.setLogic; split <;> rfl

/-! `State.skip` -/

@[simp] theorem State.skip_params (c : Bool) : (s.skip c).params = s.params := by
  cases c <;> rfl
@[simp] theorem State.skip_v (c : Bool) : (s.skip c).v = s.v := by
  cases c <;> rfl
@[simp] theorem State.skip_iReg (c : Bool) : (s.skip c).iReg = s.iReg := by
  cases c <;> rfl
@[simp] theorem State.skip_pc (c : Bool) :
    (s.skip c).pc = if c then s.pc + 2 else s.pc := by
  cases c <;> rfl
@[simp] theorem State.skip_dt (c : Bool) : (s.skip c).dt = s.dt := by
  cases c <;> rfl
@[simp] theorem State.skip_st (c : Bool) : (s.skip c).st = s.st := by
  cases c <;> rfl
@[simp] theorem State.skip_stack (c : Bool) : (s.skip c).stack = s.stack := by
  cases c <;> rfl
@[simp] theorem State.skip_mem (c : Bool) : (s.skip c).mem = s.mem := by
  cases c <;> rfl
@[simp] theorem State.skip_display (c : Bool) : (s.skip c).display = s.display := by
  cases c <;> rfl
@[simp] theorem State.skip_kbdMask (c : Bool) : (s.skip c).kbdMask = s.kbdMask := by
  cases c <;> rfl
@[simp] theorem State.skip_run (c : Bool) : (s.skip c).run = s.run := by
  cases c <;> rfl
@[simp] theorem State.skip_faults (c : Bool) : (s.skip c).faults = s.faults := by
  cases c <;> rfl
@[simp] theorem State.skip_slot (c : Bool) : (s.skip c).slot = s.slot := by
  cases c <;> rfl
@[simp] theorem State.skip_loop (c : Bool) : (s.skip c).loop = s.loop := by
  cases c <;> rfl
@[simp] theorem State.skip_rndDraws (c : Bool) : (s.skip c).rndDraws = s.rndDraws := by
  cases c <;> rfl
@[simp] theorem State.skip_keyDraws (c : Bool) : (s.skip c).keyDraws = s.keyDraws := by
  cases c <;> rfl
@[simp] theorem State.skip_pollDraws (c : Bool) : (s.skip c).pollDraws = s.pollDraws := by
  cases c <;> rfl
@[simp] theorem State.skip_closeDraws (c : Bool) : (s.skip c).closeDraws = s.closeDraws := by
  cases c <;> rfl
@[simp] theorem State.skip_beeps (c : Bool) : (s.skip c).beeps = s.beeps := by
  cases c <;> rfl
@[simp] theorem State.skip_presents (c : Bool) : (s.skip c).presents = s.presents := by
  cases c <;> rfl

/-! `State.takeSnapshot` -/

@[simp] theorem State.takeSnapshot_params : (s.takeSnapshot).params = s.params := rfl
@[simp] theorem State.takeSnapshot_v : (s.takeSnapshot).v = s.v := rfl
@[simp] theorem State.takeSnapshot_iReg : (s.takeSnapshot).iReg = s.iReg := rfl
@[simp] theorem State.takeSnapshot_pc : (s.takeSnapshot).pc = s.pc := rfl
@[simp] theorem State.takeSnapshot_dt : (s.takeSnapshot).dt = s.dt := rfl
@[simp] theorem State.takeSnapshot_st : (s.takeSnapshot).st = s.st := rfl
@[simp] theorem State.takeSnapshot_stack : (s.takeSnapshot).stack = s.stack := rfl
@[simp] theorem State.takeSnapshot_mem : (s.takeSnapshot).mem = s.mem := rfl
@[simp] theorem State.takeSnapshot_display : (s.takeSnapshot).display = s.display := rfl
@[simp] theorem State.takeSnapshot_kbdMask :
    (s.takeSnapshot).kbdMask = Config.pollBitmask s.pollDraws := rfl
@[simp] theorem State.takeSnapshot_run : (s.takeSnapshot).run = s.run := rfl
@[simp] theorem State.takeSnapshot_faults : (s.takeSnapshot).faults = s.faults := rfl
@[simp] theorem State.takeSnapshot_slot :
    (s.takeSnapshot).slot = 0 := rfl
@[simp] theorem State.takeSnapshot_loop :
    (s.takeSnapshot).loop = .batch := rfl
@[simp] theorem State.takeSnapshot_rndDraws : (s.takeSnapshot).rndDraws = s.rndDraws := rfl
@[simp] theorem State.takeSnapshot_keyDraws : (s.takeSnapshot).keyDraws = s.keyDraws := rfl
@[simp] theorem State.takeSnapshot_pollDraws :
    (s.takeSnapshot).pollDraws = s.pollDraws + 1 := rfl
@[simp] theorem State.takeSnapshot_closeDraws : (s.takeSnapshot).closeDraws = s.closeDraws := rfl
@[simp] theorem State.takeSnapshot_beeps : (s.takeSnapshot).beeps = s.beeps := rfl
@[simp] theorem State.takeSnapshot_presents : (s.takeSnapshot).presents = s.presents := rfl

/-! `State.tickTimers` -/

@[simp] theorem State.tickTimers_params : (s.tickTimers).params = s.params := rfl
@[simp] theorem State.tickTimers_v : (s.tickTimers).v = s.v := rfl
@[simp] theorem State.tickTimers_iReg : (s.tickTimers).iReg = s.iReg := rfl
@[simp] theorem State.tickTimers_pc : (s.tickTimers).pc = s.pc := rfl
@[simp] theorem State.tickTimers_dt :
    (s.tickTimers).dt = satDec s.dt := rfl
@[simp] theorem State.tickTimers_st :
    (s.tickTimers).st = satDec s.st := rfl
@[simp] theorem State.tickTimers_stack : (s.tickTimers).stack = s.stack := rfl
@[simp] theorem State.tickTimers_mem : (s.tickTimers).mem = s.mem := rfl
@[simp] theorem State.tickTimers_display : (s.tickTimers).display = s.display := rfl
@[simp] theorem State.tickTimers_kbdMask : (s.tickTimers).kbdMask = s.kbdMask := rfl
@[simp] theorem State.tickTimers_run : (s.tickTimers).run = s.run := rfl
@[simp] theorem State.tickTimers_faults : (s.tickTimers).faults = s.faults := rfl
@[simp] theorem State.tickTimers_slot : (s.tickTimers).slot = s.slot := rfl
@[simp] theorem State.tickTimers_loop :
    (s.tickTimers).loop = .present := rfl
@[simp] theorem State.tickTimers_rndDraws : (s.tickTimers).rndDraws = s.rndDraws := rfl
@[simp] theorem State.tickTimers_keyDraws : (s.tickTimers).keyDraws = s.keyDraws := rfl
@[simp] theorem State.tickTimers_pollDraws : (s.tickTimers).pollDraws = s.pollDraws := rfl
@[simp] theorem State.tickTimers_closeDraws : (s.tickTimers).closeDraws = s.closeDraws := rfl
@[simp] theorem State.tickTimers_beeps :
    (s.tickTimers).beeps = if s.st = 0 then s.beeps else s.beeps + 1 := rfl
@[simp] theorem State.tickTimers_presents : (s.tickTimers).presents = s.presents := rfl

/-! `State.presentFrame` -/

@[simp] theorem State.presentFrame_params : (s.presentFrame).params = s.params := rfl
@[simp] theorem State.presentFrame_v : (s.presentFrame).v = s.v := rfl
@[simp] theorem State.presentFrame_iReg : (s.presentFrame).iReg = s.iReg := rfl
@[simp] theorem State.presentFrame_pc : (s.presentFrame).pc = s.pc := rfl
@[simp] theorem State.presentFrame_dt : (s.presentFrame).dt = s.dt := rfl
@[simp] theorem State.presentFrame_st : (s.presentFrame).st = s.st := rfl
@[simp] theorem State.presentFrame_stack : (s.presentFrame).stack = s.stack := rfl
@[simp] theorem State.presentFrame_mem : (s.presentFrame).mem = s.mem := rfl
@[simp] theorem State.presentFrame_display : (s.presentFrame).display = s.display := rfl
@[simp] theorem State.presentFrame_kbdMask : (s.presentFrame).kbdMask = s.kbdMask := rfl
@[simp] theorem State.presentFrame_run : (s.presentFrame).run = s.run := rfl
@[simp] theorem State.presentFrame_faults : (s.presentFrame).faults = s.faults := rfl
@[simp] theorem State.presentFrame_slot : (s.presentFrame).slot = s.slot := rfl
@[simp] theorem State.presentFrame_loop :
    (s.presentFrame).loop = .close := rfl
@[simp] theorem State.presentFrame_rndDraws : (s.presentFrame).rndDraws = s.rndDraws := rfl
@[simp] theorem State.presentFrame_keyDraws : (s.presentFrame).keyDraws = s.keyDraws := rfl
@[simp] theorem State.presentFrame_pollDraws : (s.presentFrame).pollDraws = s.pollDraws := rfl
@[simp] theorem State.presentFrame_closeDraws : (s.presentFrame).closeDraws = s.closeDraws := rfl
@[simp] theorem State.presentFrame_beeps : (s.presentFrame).beeps = s.beeps := rfl
@[simp] theorem State.presentFrame_presents :
    (s.presentFrame).presents = s.presents + 1 := rfl

/-! `State.checkClose` -/

@[simp] theorem State.checkClose_params : (s.checkClose).params = s.params := rfl
@[simp] theorem State.checkClose_v : (s.checkClose).v = s.v := rfl
@[simp] theorem State.checkClose_iReg : (s.checkClose).iReg = s.iReg := rfl
@[simp] theorem State.checkClose_pc : (s.checkClose).pc = s.pc := rfl
@[simp] theorem State.checkClose_dt : (s.checkClose).dt = s.dt := rfl
@[simp] theorem State.checkClose_st : (s.checkClose).st = s.st := rfl
@[simp] theorem State.checkClose_stack : (s.checkClose).stack = s.stack := rfl
@[simp] theorem State.checkClose_mem : (s.checkClose).mem = s.mem := rfl
@[simp] theorem State.checkClose_display : (s.checkClose).display = s.display := rfl
@[simp] theorem State.checkClose_kbdMask : (s.checkClose).kbdMask = s.kbdMask := rfl
@[simp] theorem State.checkClose_run : (s.checkClose).run = s.run := rfl
@[simp] theorem State.checkClose_faults : (s.checkClose).faults = s.faults := rfl
@[simp] theorem State.checkClose_slot : (s.checkClose).slot = s.slot := rfl
@[simp] theorem State.checkClose_loop :
    (s.checkClose).loop = if Config.shouldClose s.closeDraws then .ended else .snapshot := rfl
@[simp] theorem State.checkClose_rndDraws : (s.checkClose).rndDraws = s.rndDraws := rfl
@[simp] theorem State.checkClose_keyDraws : (s.checkClose).keyDraws = s.keyDraws := rfl
@[simp] theorem State.checkClose_pollDraws : (s.checkClose).pollDraws = s.pollDraws := rfl
@[simp] theorem State.checkClose_closeDraws :
    (s.checkClose).closeDraws = s.closeDraws + 1 := rfl
@[simp] theorem State.checkClose_beeps : (s.checkClose).beeps = s.beeps := rfl
@[simp] theorem State.checkClose_presents : (s.checkClose).presents = s.presents := rfl

/-! `State.setRegs` -/

theorem State.setRegs_eq (k : Nat) (bs : List Byte) :
    s.setRegs k bs = { s with v := (s.setRegs k bs).v } := by
  induction bs generalizing s k with
  | nil => rfl
  | cons b bs ih =>
    rw [State.setRegs, ih]
    split <;> rfl

@[simp] theorem State.setRegs_params (k : Nat) (bs : List Byte) : (s.setRegs k bs).params = s.params := by
  rw [s.setRegs_eq k bs]
@[simp] theorem State.setRegs_iReg (k : Nat) (bs : List Byte) : (s.setRegs k bs).iReg = s.iReg := by
  rw [s.setRegs_eq k bs]
@[simp] theorem State.setRegs_pc (k : Nat) (bs : List Byte) : (s.setRegs k bs).pc = s.pc := by
  rw [s.setRegs_eq k bs]
@[simp] theorem State.setRegs_dt (k : Nat) (bs : List Byte) : (s.setRegs k bs).dt = s.dt := by
  rw [s.setRegs_eq k bs]
@[simp] theorem State.setRegs_st (k : Nat) (bs : List Byte) : (s.setRegs k bs).st = s.st := by
  rw [s.setRegs_eq k bs]
@[simp] theorem State.setRegs_stack (k : Nat) (bs : List Byte) : (s.setRegs k bs).stack = s.stack := by
  rw [s.setRegs_eq k bs]
@[simp] theorem State.setRegs_mem (k : Nat) (bs : List Byte) : (s.setRegs k bs).mem = s.mem := by
  rw [s.setRegs_eq k bs]
@[simp] theorem State.setRegs_display (k : Nat) (bs : List Byte) : (s.setRegs k bs).display = s.display := by
  rw [s.setRegs_eq k bs]
@[simp] theorem State.setRegs_kbdMask (k : Nat) (bs : List Byte) : (s.setRegs k bs).kbdMask = s.kbdMask := by
  rw [s.setRegs_eq k bs]
@[simp] theorem State.setRegs_run (k : Nat) (bs : List Byte) : (s.setRegs k bs).run = s.run := by
  rw [s.setRegs_eq k bs]
@[simp] theorem State.setRegs_faults (k : Nat) (bs : List Byte) : (s.setRegs k bs).faults = s.faults := by
  rw [s.setRegs_eq k bs]
@[simp] theorem State.setRegs_slot (k : Nat) (bs : List Byte) : (s.setRegs k bs).slot = s.slot := by
  rw [s.setRegs_eq k bs]
@[simp] theorem State.setRegs_loop (k : Nat) (bs : List Byte) : (s.setRegs k bs).loop = s.loop := by
  rw [s.setRegs_eq k bs]
@[simp] theorem State.setRegs_rndDraws (k : Nat) (bs : List Byte) : (s.setRegs k bs).rndDraws = s.rndDraws := by
  rw [s.setRegs_eq k bs]
@[simp] theorem State.setRegs_keyDraws (k : Nat) (bs : List Byte) : (s.setRegs k bs).keyDraws = s.keyDraws := by
  rw [s.setRegs_eq k bs]
@[simp] theorem State.setRegs_pollDraws (k : Nat) (bs : List Byte) : (s.setRegs k bs).pollDraws = s.pollDraws := by
  rw [s.setRegs_eq k bs]
@[simp] theorem State.setRegs_closeDraws (k : Nat) (bs : List Byte) : (s.setRegs k bs).closeDraws = s.closeDraws := by
  rw [s.setRegs_eq k bs]
@[simp] theorem State.setRegs_beeps (k : Nat) (bs : List Byte) : (s.setRegs k bs).beeps = s.beeps := by
  rw [s.setRegs_eq k bs]
@[simp] theorem State.setRegs_presents (k : Nat) (bs : List Byte) : (s.setRegs k bs).presents = s.presents := by
  rw [s.setRegs_eq k bs]

end Sys2Proof.Machine
end

