-- ==== Sys2Proof/Laws/Ops.lean ====
section
/-! SUPPORT. One law per shared operation: everything it can do. -/

namespace Sys2Proof.Machine

variable {s t : State}

/-! Registers -/

theorem State.reg_setReg (s : State) (x : Nibble) (b : Byte) (r : Nibble) :
    (s.setReg x b).reg r = if r = x then b else s.reg r := by
  unfold State.reg State.setReg
  by_cases h : r = x
  · subst h; simp
  · have : x.toNat ≠ r.toNat := fun hh => h (BitVec.eq_of_toNat_eq hh.symm)
    simp [h, this]

@[simp] theorem State.reg_setReg_self (s : State) (x : Nibble) (b : Byte) : (s.setReg x b).reg x = b := by
  simp [State.reg_setReg]

theorem State.reg_setReg_ne (s : State) {x r : Nibble} (b : Byte) (h : r ≠ x) : (s.setReg x b).reg r = s.reg r := by
  simp [State.reg_setReg, h]

/-- `reg` reads the register file only. -/
theorem State.reg_congr (h : t.v = s.v) (r : Nibble) : t.reg r = s.reg r := by
  unfold State.reg; simp [h]

@[simp] theorem State.reg_setI (s : State) (w : Word) (r : Nibble) : (s.setI w).reg r = s.reg r := rfl
@[simp] theorem State.reg_setPc (s : State) (w : Word) (r : Nibble) : (s.setPc w).reg r = s.reg r := rfl
@[simp] theorem State.reg_setDt (s : State) (b : Byte) (r : Nibble) : (s.setDt b).reg r = s.reg r := rfl
@[simp] theorem State.reg_setSt (s : State) (b : Byte) (r : Nibble) : (s.setSt b).reg r = s.reg r := rfl
@[simp] theorem State.reg_setMem (s : State) (m : List Host.Cell) (r : Nibble) : (s.setMem m).reg r = s.reg r := rfl
@[simp] theorem State.reg_setStack (s : State) (l : List Word) (r : Nibble) : (s.setStack l).reg r = s.reg r := rfl
@[simp] theorem State.reg_setDisplay (s : State) (d : Grid) (r : Nibble) : (s.setDisplay d).reg r = s.reg r := rfl

/-- Two states with the same registers have the same register file. -/
theorem State.v_ext (h : ∀ r, t.reg r = s.reg r) : t.v = s.v := by
  apply Vector.ext
  intro k hk
  have := h (BitVec.ofNat 4 k)
  simpa [State.reg, Nat.mod_eq_of_lt hk] using this

/-- What a run of register writes leaves (R175). -/
theorem State.reg_setRegs (s : State) (k : Nat) (bs : List Byte) (hk : k + bs.length ≤ 16) (r : Nibble) :
    (s.setRegs k bs).reg r =
      if h : k ≤ r.toNat ∧ r.toNat < k + bs.length then bs[r.toNat - k]'(by omega) else s.reg r := by
  induction bs generalizing s k with
  | nil => simp [State.setRegs]
  | cons b bs ih =>
    simp only [List.length_cons] at hk
    have hk16 : k < 16 := by omega
    rw [State.setRegs, if_pos hk16, ih _ (k + 1) (by omega), State.reg_setReg]
    simp only [List.length_cons]
    have hkn : (BitVec.ofNat 4 k).toNat = k := by simp [Nat.mod_eq_of_lt hk16]
    by_cases hr : r.toNat = k
    · have : r = BitVec.ofNat 4 k := BitVec.eq_of_toNat_eq (by rw [hkn, hr])
      simp [this, hkn]
    · have hrne : r ≠ BitVec.ofNat 4 k := fun h => hr (by rw [h, hkn])
      by_cases hin : k + 1 ≤ r.toNat ∧ r.toNat < k + 1 + bs.length
      · rw [dif_pos hin, dif_pos (by omega)]
        have hsub : r.toNat - k = (r.toNat - (k + 1)) + 1 := by omega
        simp [hsub]
      · rw [dif_neg hin, dif_neg (by omega), if_neg hrne]

/-- The result, then VF last (R12). -/
theorem State.reg_setWithFlag (s : State) (x : Nibble) (r flag : Byte) (q : Nibble) :
    (s.setWithFlag x r flag).reg q = if q = vf then flag else if q = x then r else s.reg q := by
  simp [State.setWithFlag, State.reg_setReg]

/-- The logic flag rule (R144). -/
theorem State.reg_setLogic (s : State) (x : Nibble) (r : Byte) (q : Nibble) :
    (s.setLogic x r).reg q =
      if q = vf then (if x = vf then r >>> 7 else 0) else if q = x then r else s.reg q := by
  unfold State.setLogic
  by_cases hx : x = vf
  · subst hx
    simp only [State.reg_setReg, if_true]
  · simp only [hx, State.reg_setReg, if_false]

/-! Memory -/

/-- `byte` reads memory and the parameters only. -/
theorem State.byte_congr (hp : t.params = s.params) (hm : t.mem = s.mem) (a : Nat) : t.byte a = s.byte a := by
  unfold State.byte; rw [hp, hm]

@[simp] theorem State.byte_setReg (s : State) (x : Nibble) (b : Byte) (a : Nat) : (s.setReg x b).byte a = s.byte a := rfl
@[simp] theorem State.byte_setI (s : State) (w : Word) (a : Nat) : (s.setI w).byte a = s.byte a := rfl
@[simp] theorem State.byte_setPc (s : State) (w : Word) (a : Nat) : (s.setPc w).byte a = s.byte a := rfl
@[simp] theorem State.byte_setDt (s : State) (b : Byte) (a : Nat) : (s.setDt b).byte a = s.byte a := rfl
@[simp] theorem State.byte_setSt (s : State) (b : Byte) (a : Nat) : (s.setSt b).byte a = s.byte a := rfl
@[simp] theorem State.byte_setStack (s : State) (l : List Word) (a : Nat) : (s.setStack l).byte a = s.byte a := rfl
@[simp] theorem State.byte_setDisplay (s : State) (d : Grid) (a : Nat) : (s.setDisplay d).byte a = s.byte a := rfl
@[simp] theorem State.byte_setRegs (s : State) (k : Nat) (bs : List Byte) (a : Nat) :
    (s.setRegs k bs).byte a = s.byte a := State.byte_congr (by simp) (by simp) a
@[simp] theorem State.byte_skip (s : State) (c : Bool) (a : Nat) : (s.skip c).byte a = s.byte a :=
  State.byte_congr (by simp) (by simp) a

@[simp] theorem State.bytesAt_length (s : State) (a n : Nat) : (s.bytesAt a n).length = n := by
  simp [State.bytesAt]

@[simp] theorem State.bytesAt_getElem (s : State) (a n j : Nat) (h : j < (s.bytesAt a n).length) :
    (s.bytesAt a n)[j] = s.byte (a + j) := by
  simp [State.bytesAt]

@[simp] theorem State.regBlock_length (s : State) (x : Nibble) : (s.regBlock x).length = x.toNat + 1 := by
  simp [State.regBlock, blockLength]

@[simp] theorem State.regBlock_getElem (s : State) (x : Nibble) (j : Nat) (h : j < (s.regBlock x).length) :
    (s.regBlock x)[j] = s.reg (BitVec.ofNat 4 j) := by
  simp [State.regBlock]

@[simp] theorem bcdDigits_length (b : Byte) : (bcdDigits b).length = 3 := rfl

/-- A read answers the bytes, or fails exactly out of range (R55). -/
theorem State.memRead_cases (s : State) (a n : Nat) :
    (n ≠ 0 ∧ memSize ≤ a + n - 1 ∧ s.memRead a n = .error (.memoryOutOfRange a n)) ∨
      (¬(n ≠ 0 ∧ memSize ≤ a + n - 1) ∧ s.memRead a n = .ok (s.bytesAt a n)) := by
  unfold State.memRead outOfRange
  by_cases h : n ≠ 0 ∧ memSize ≤ a + n - 1
  · exact .inl ⟨h.1, h.2, if_pos (by simpa using h)⟩
  · exact .inr ⟨h, if_neg (by simpa using h)⟩

/-- A write answers the state with the bytes written, or fails exactly out of range (R56). -/
theorem State.memWrite_cases (s : State) (a : Nat) (bs : List Byte) :
    (bs.length ≠ 0 ∧ memSize ≤ a + bs.length - 1 ∧ s.memWrite a bs = .error (.memoryOutOfRange a bs.length)) ∨
      (¬(bs.length ≠ 0 ∧ memSize ≤ a + bs.length - 1) ∧
        s.memWrite a bs = .ok (s.setMem (Memory.writeList s.params s.mem a bs))) := by
  unfold State.memWrite outOfRange
  by_cases h : bs.length ≠ 0 ∧ memSize ≤ a + bs.length - 1
  · exact .inl ⟨h.1, h.2, if_pos (decide_eq_true h)⟩
  · exact .inr ⟨h, if_neg (by simpa using h)⟩

/-- Reading after a run of writes. -/
theorem State.byte_writeList (s : State) (a : Nat) (bs : List Byte) (c : Nat) :
    (s.setMem (Memory.writeList s.params s.mem a bs)).byte c =
      if h : a ≤ c ∧ c < a + bs.length then bs[c - a]'(by omega) else s.byte c :=
  Memory.read_writeList s.params bs s.mem a c

/-! Call stack -/

/-- A push appends, or fails exactly at capacity (R29). -/
theorem State.push_cases (s : State) (w : Word) :
    (s.stack.length < stackCap ∧ s.push w = .ok (s.setStack (s.stack ++ [w]))) ∨
      (stackCap ≤ s.stack.length ∧ s.push w = .error .stackOverflow) := by
  unfold State.push
  by_cases h : s.stack.length < stackCap
  · exact .inl ⟨h, if_pos h⟩
  · exact .inr ⟨by omega, if_neg h⟩

/-- A pop answers the last entry, or fails exactly on an empty stack (R30). -/
theorem State.pop_cases (s : State) :
    (∃ w rest, s.stack = rest ++ [w] ∧ s.pop = .ok (w, s.setStack rest)) ∨
      (s.stack = [] ∧ s.pop = .error .stackUnderflow) := by
  rcases List.eq_nil_or_concat s.stack with h | ⟨rest, w, h⟩
  · exact .inr ⟨h, by simp [State.pop, h]⟩
  · refine .inl ⟨w, rest, by simpa using h, ?_⟩
    simp [State.pop, h]

/-! Program counter -/

/-- The target check (R120). -/
theorem checkTarget_cases (a : Nat) :
    (memSize ≤ a ∧ checkTarget a = .error (.addressOutOfRange a)) ∨ (a < memSize ∧ checkTarget a = .ok ()) := by
  unfold checkTarget
  by_cases h : memSize ≤ a
  · exact .inl ⟨h, if_pos h⟩
  · exact .inr ⟨by omega, if_neg h⟩

/-- The check of a 12-bit target never fails (R124, R125). -/
@[simp] theorem checkTarget_addr12 (nnn : Addr12) : checkTarget nnn.toNat = .ok () := by
  have := nnn.isLt
  rcases checkTarget_cases nnn.toNat with ⟨h, -⟩ | ⟨-, h⟩
  · simp only [memSize] at h; omega
  · exact h

/-- A skip writes `PC` only (R121). -/
theorem State.skip_eq (s : State) (c : Bool) : s.skip c = { s with pc := if c then s.pc + 2 else s.pc } := by
  cases c <;> rfl

/-- The fetch answers the big-endian word at `PC`, or nothing exactly past the last full word (R50, R58). -/
theorem State.fetch_cases (s : State) :
    (memSize ≤ s.pc.toNat + 1 ∧ s.fetch = none) ∨
      (s.pc.toNat + 1 < memSize ∧
        s.fetch = some (wordOfBytes (s.byte s.pc.toNat) (s.byte (s.pc.toNat + 1)))) := by
  unfold State.fetch
  by_cases h : memSize ≤ s.pc.toNat + 1
  · exact .inl ⟨h, if_pos h⟩
  · exact .inr ⟨by omega, if_neg h⟩

/-- Splitting a word into bytes and joining them gives it back (R50). -/
theorem wordOfBytes_bytes (w : Word) : wordOfBytes (w.extractLsb' 8 8) (w.extractLsb' 0 8) = w := by
  apply BitVec.eq_of_toNat_eq
  have hw := w.isLt
  simp only [wordOfBytes, BitVec.toNat_ofNat, BitVec.extractLsb'_toNat, Nat.shiftRight_eq_div_pow]
  omega

/-! Sprites -/

/-- A sprite row's pixels: column `px - x0` of the columns drawn, inside the grid. -/
theorem Grid.pixel_drawCols (byte : Byte) (x0 py : Nat) (cols : List Nat) (hn : cols.Nodup) (acc : Grid × Bool)
    (qx qy : Nat) :
    Grid.pixel (Grid.drawCols byte x0 py cols acc).1 qx qy =
      (Grid.pixel acc.1 qx qy ^^
        (decide (qy = py ∧ x0 ≤ qx ∧ qx - x0 ∈ cols ∧ qx < 64 ∧ qy < 32) && byte.getLsbD (7 - (qx - x0)))) := by
  induction cols generalizing acc with
  | nil => simp [Grid.drawCols]
  | cons col cols ih =>
    obtain ⟨d, hit⟩ := acc
    obtain ⟨hnot, hn'⟩ := List.nodup_cons.mp hn
    by_cases hc : qy = py ∧ qx = x0 + col
    · obtain ⟨rfl, rfl⟩ := hc
      have hrest : x0 + col - x0 ∉ cols := by simpa using hnot
      by_cases hb : byte.getLsbD (7 - col)
      · simp only [Grid.drawCols, hb, if_true]
        rw [ih hn']
        simp [Grid.pixel_putPixel, hb, hnot]
        by_cases hg1 : x0 + col < 64 <;> by_cases hg2 : qy < 32 <;> simp [hg1, hg2]
      · simp only [Grid.drawCols, hb]
        rw [if_neg (by simp), ih hn']
        simp [hb]
    · have hput : Grid.pixel (Grid.putPixel d (x0 + col) py).1 qx qy = Grid.pixel d qx qy := by
        rw [Grid.pixel_putPixel, if_neg]
        rintro ⟨h1, h2, -⟩; exact hc ⟨h2, h1⟩
      have hmem : (qy = py ∧ x0 ≤ qx ∧ qx - x0 ∈ col :: cols ∧ qx < 64 ∧ qy < 32) ↔
          (qy = py ∧ x0 ≤ qx ∧ qx - x0 ∈ cols ∧ qx < 64 ∧ qy < 32) := by
        simp only [List.mem_cons]
        constructor
        · rintro ⟨h1, h2, h3 | h3, h4⟩
          · exact absurd ⟨h1, by omega⟩ hc
          · exact ⟨h1, h2, h3, h4⟩
        · rintro ⟨h1, h2, h3, h4⟩
          exact ⟨h1, h2, .inr h3, h4⟩
      simp only [Grid.drawCols]
      split
      · rw [ih hn']
        simp only [hput, hmem]
      · rw [ih hn']
        simp only [hmem]

/-- A sprite row's collision: some drawn bit falls on a set pixel of the grid. -/
theorem Grid.hit_drawCols (byte : Byte) (x0 py : Nat) (cols : List Nat) (hn : cols.Nodup) (acc : Grid × Bool) :
    (Grid.drawCols byte x0 py cols acc).2 = true ↔
      acc.2 = true ∨ ∃ col ∈ cols, byte.getLsbD (7 - col) = true ∧ Grid.pixel acc.1 (x0 + col) py = true := by
  induction cols generalizing acc with
  | nil => simp [Grid.drawCols]
  | cons col cols ih =>
    obtain ⟨d, hit⟩ := acc
    obtain ⟨hnot, hn'⟩ := List.nodup_cons.mp hn
    have hput : ∀ c ∈ cols, Grid.pixel (Grid.putPixel d (x0 + col) py).1 (x0 + c) py = Grid.pixel d (x0 + c) py := by
      intro c hc
      rw [Grid.pixel_putPixel, if_neg]
      rintro ⟨h1, -⟩
      have : c = col := by omega
      exact hnot (this ▸ hc)
    simp only [Grid.drawCols]
    split
    · next hb =>
      rw [ih hn']
      simp only [Grid.putPixel_hit, Bool.or_eq_true, List.mem_cons]
      constructor
      · rintro ((h | h) | ⟨c, hc, h1, h2⟩)
        · exact .inl h
        · exact .inr ⟨col, .inl rfl, hb, h⟩
        · exact .inr ⟨c, .inr hc, h1, (hput c hc) ▸ h2⟩
      · rintro (h | ⟨c, rfl | hc, h1, h2⟩)
        · exact .inl (.inl h)
        · exact .inl (.inr h2)
        · exact .inr ⟨c, hc, h1, (hput c hc).symm ▸ h2⟩
    · next hb =>
      rw [ih hn']
      simp only [List.mem_cons]
      constructor
      · rintro (h | ⟨c, hc, h⟩)
        · exact .inl h
        · exact .inr ⟨c, .inr hc, h⟩
      · rintro (h | ⟨c, rfl | hc, h1, h2⟩)
        · exact .inl h
        · exact absurd h1 hb
        · exact .inr ⟨c, hc, h1, h2⟩

/-- The set bit of a sprite at a place of the grid, for the rows of a blit at `(x0, y0)`. -/
def Grid.spriteAt (x0 y0 : Nat) (sprite : List Byte) (qx qy : Nat) : Bool :=
  decide (x0 ≤ qx ∧ qx < x0 + 8 ∧ y0 ≤ qy ∧ qy < y0 + sprite.length) &&
    (sprite.getD (qy - y0) 0).getLsbD (7 - (qx - x0))

theorem Grid.spriteAt_nil (x0 y0 qx qy : Nat) : Grid.spriteAt x0 y0 [] qx qy = false := by
  unfold Grid.spriteAt
  rw [Bool.and_eq_false_iff]
  refine .inl (decide_eq_false ?_)
  simp only [List.length_nil]; omega

theorem Grid.spriteAt_row (x0 y0 : Nat) (byte : Byte) (rows : List Byte) (qx : Nat) :
    Grid.spriteAt x0 y0 (byte :: rows) qx y0 =
      (decide (x0 ≤ qx ∧ qx < x0 + 8) && byte.getLsbD (7 - (qx - x0))) := by
  simp [Grid.spriteAt]

theorem Grid.spriteAt_later (x0 y0 : Nat) (byte : Byte) (rows : List Byte) (qx qy : Nat) (h : qy ≠ y0) :
    Grid.spriteAt x0 y0 (byte :: rows) qx qy = Grid.spriteAt x0 (y0 + 1) rows qx qy := by
  unfold Grid.spriteAt
  have hd : (x0 ≤ qx ∧ qx < x0 + 8 ∧ y0 ≤ qy ∧ qy < y0 + (byte :: rows).length) ↔
      (x0 ≤ qx ∧ qx < x0 + 8 ∧ y0 + 1 ≤ qy ∧ qy < y0 + 1 + rows.length) := by
    simp only [List.length_cons]; omega
  by_cases hin : x0 ≤ qx ∧ qx < x0 + 8 ∧ y0 + 1 ≤ qy ∧ qy < y0 + 1 + rows.length
  · have hsub : qy - y0 = (qy - (y0 + 1)) + 1 := by omega
    rw [decide_eq_true hin, decide_eq_true (hd.mpr hin), hsub, List.getD_cons_succ]
  · rw [decide_eq_false hin, decide_eq_false (mt hd.mp hin), Bool.false_and, Bool.false_and]

/-- The columns of a sprite row are 0 to 7. -/
theorem mem_columns (c : Nat) : c ∈ [0, 1, 2, 3, 4, 5, 6, 7] ↔ c < 8 := by
  simp only [List.mem_cons, List.not_mem_nil, or_false]; omega

/-- What a blit does to a pixel of the grid: it is XORed with its sprite bit; a place outside is not drawn (R191). -/
theorem Grid.pixel_drawRows (x0 y0 : Nat) (sprite : List Byte) (acc : Grid × Bool) {qx qy : Nat} (hx : qx < 64)
    (hy : qy < 32) :
    Grid.pixel (Grid.drawRows x0 y0 sprite acc).1 qx qy =
      (Grid.pixel acc.1 qx qy ^^ Grid.spriteAt x0 y0 sprite qx qy) := by
  induction sprite generalizing y0 acc with
  | nil => simp [Grid.drawRows, Grid.spriteAt_nil]
  | cons byte rows ih =>
    rw [Grid.drawRows, ih, Grid.pixel_drawCols _ _ _ _ (by decide)]
    by_cases h : qy = y0
    · subst h
      have hlater : Grid.spriteAt x0 (qy + 1) rows qx qy = false := by
        unfold Grid.spriteAt
        rw [Bool.and_eq_false_iff]
        refine .inl (decide_eq_false ?_)
        omega
      have hcol : (qy = qy ∧ x0 ≤ qx ∧ qx - x0 ∈ [0, 1, 2, 3, 4, 5, 6, 7] ∧ qx < 64 ∧ qy < 32) ↔
          (x0 ≤ qx ∧ qx < x0 + 8) := by
        rw [mem_columns]; omega
      rw [hlater, Grid.spriteAt_row, Bool.xor_false]
      exact congrArg (fun b => Grid.pixel acc.1 qx qy ^^ (b && byte.getLsbD (7 - (qx - x0)))) (decide_eq_decide.mpr hcol)
    · rw [Grid.spriteAt_later _ _ _ _ _ _ h]
      simp [h]

/-- The collision of a blit: some pixel of the grid was set and has its sprite bit set (R191). -/
theorem Grid.hit_drawRows (x0 y0 : Nat) (sprite : List Byte) (acc : Grid × Bool) :
    (Grid.drawRows x0 y0 sprite acc).2 = true ↔
      acc.2 = true ∨ ∃ qx qy, qx < 64 ∧ qy < 32 ∧ Grid.spriteAt x0 y0 sprite qx qy = true ∧
        Grid.pixel acc.1 qx qy = true := by
  induction sprite generalizing y0 acc with
  | nil => simp [Grid.drawRows, Grid.spriteAt_nil]
  | cons byte rows ih =>
    rw [Grid.drawRows, ih, Grid.hit_drawCols _ _ _ _ (by decide)]
    have hin : ∀ {qx qy : Nat}, Grid.pixel acc.1 qx qy = true → qx < 64 ∧ qy < 32 := by
      intro qx qy h
      by_contra hn
      simp [Grid.pixel, hn] at h
    have hrow : ∀ {qx qy : Nat}, y0 + 1 ≤ qy →
        Grid.pixel (Grid.drawCols byte x0 y0 [0, 1, 2, 3, 4, 5, 6, 7] acc).1 qx qy = Grid.pixel acc.1 qx qy := by
      intro qx qy h
      rw [Grid.pixel_drawCols _ _ _ _ (by decide)]
      simp [show qy ≠ y0 by omega]
    have hlow : ∀ {qx qy : Nat}, Grid.spriteAt x0 (y0 + 1) rows qx qy = true → y0 + 1 ≤ qy := by
      intro qx qy h
      simp only [Grid.spriteAt, Bool.and_eq_true, decide_eq_true_eq] at h
      exact h.1.2.2.1
    constructor
    · rintro ((h | ⟨c, hc, hb, hp⟩) | ⟨qx, qy, h1, h2, h3, h4⟩)
      · exact .inl h
      · refine .inr ⟨x0 + c, y0, (hin hp).1, (hin hp).2, ?_, hp⟩
        rw [Grid.spriteAt_row]
        simp only [mem_columns] at hc
        simp [hc, hb]
      · have hlo := hlow h3
        refine .inr ⟨qx, qy, h1, h2, ?_, (hrow hlo) ▸ h4⟩
        rw [Grid.spriteAt_later _ _ _ _ _ _ (by omega)]
        exact h3
    · rintro (h | ⟨qx, qy, h1, h2, h3, h4⟩)
      · exact .inl (.inl h)
      · by_cases h : qy = y0
        · subst h
          rw [Grid.spriteAt_row] at h3
          simp only [Bool.and_eq_true, decide_eq_true_eq] at h3
          obtain ⟨⟨ha, hb⟩, hbit⟩ := h3
          refine .inl (.inr ⟨qx - x0, (mem_columns _).mpr (by omega), hbit, ?_⟩)
          rw [show x0 + (qx - x0) = qx by omega]
          exact h4
        · rw [Grid.spriteAt_later _ _ _ _ _ _ h] at h3
          exact .inr ⟨qx, qy, h1, h2, h3, (hrow (hlow h3)).symm ▸ h4⟩

end Sys2Proof.Machine
end

