-- ==== Sys2Proof/Laws/Boot.lean ====
section
/-! SUPPORT. What the host operations leave in memory, and that each keeps its canonical form
(spec/70_reset_and_hazards.md). -/

namespace Sys2Proof.Machine

/-- The zeros of construction, looked up. -/
theorem Memory.lookup_zeros (p : Params) (a : Nat) (l : List Nat) :
    Memory.lookup (l.filterMap fun j =>
        if Memory.initial p (p.fontBase.val + j) = 0 then none else some ((p.fontBase.val + j, 0) : Host.Cell)) a =
      if a - p.fontBase.val ∈ l ∧ p.fontBase.val ≤ a ∧ Memory.initial p a ≠ 0 then some 0 else none := by
  induction l with
  | nil => simp
  | cons j l ih =>
    rw [List.filterMap_cons]
    by_cases hj : a = p.fontBase.val + j
    · subst hj
      by_cases hz : Memory.initial p (p.fontBase.val + j) = 0
      · simp only [hz, if_true]
        rw [ih]
        simp [hz]
      · simp only [hz, if_false, Memory.lookup]
        simp
        exact hz
    · have hmem : p.fontBase.val ≤ a → (a - p.fontBase.val ∈ j :: l ↔ a - p.fontBase.val ∈ l) := by
        intro h
        have : a - p.fontBase.val ≠ j := by omega
        simp [this]
      have hif : (a - p.fontBase.val ∈ j :: l ∧ p.fontBase.val ≤ a ∧ Memory.initial p a ≠ 0) ↔
          (a - p.fontBase.val ∈ l ∧ p.fontBase.val ≤ a ∧ Memory.initial p a ≠ 0) :=
        ⟨fun ⟨h1, h2, h3⟩ => ⟨(hmem h2).mp h1, h2, h3⟩, fun ⟨h1, h2, h3⟩ => ⟨(hmem h2).mpr h1, h2, h3⟩⟩
      simp only [hif]
      by_cases hz : Memory.initial p (p.fontBase.val + j) = 0
      · simp only [hz, if_true]
        exact ih
      · simp only [hz, if_false, Memory.lookup, if_neg (Ne.symm hj)]
        exact ih

/-- Constructed memory is all 0 (R260). -/
@[simp] theorem Memory.read_zeros (p : Params) (a : Nat) : Memory.read p (Memory.zeros p) a = 0 := by
  rw [Memory.read, Memory.zeros, Memory.lookup_zeros]
  split
  · rfl
  · next h =>
    by_contra hn
    apply h
    have hi : Memory.initial p a ≠ 0 := hn
    unfold Memory.initial at hn
    simp only [Option.getD_none] at hn
    split at hn
    · next hin =>
      simp only [fontLen] at hin
      exact ⟨by simp only [List.mem_range, fontLen]; omega, hin.1, hi⟩
    · exact absurd rfl hn

/-- Constructed memory is canonical. -/
theorem Memory.wf_zeros (p : Params) : Memory.wf p (Memory.zeros p) = true := by
  have hfb := p.fontBase.isLt
  have hrise : ∀ l : List Nat, l.Pairwise (· < ·) → Memory.rising (l.filterMap fun j =>
      if Memory.initial p (p.fontBase.val + j) = 0 then none
      else some ((p.fontBase.val + j, 0) : Host.Cell)) = true := by
    intro l hl
    induction l with
    | nil => rfl
    | cons j l ih =>
      obtain ⟨h1, h2⟩ := List.pairwise_cons.mp hl
      rw [List.filterMap_cons]
      split
      · exact ih h2
      · next hh =>
        split at hh
        · cases hh
        · cases hh
          refine Memory.rising_cons (ih h2) fun c hc => ?_
          obtain ⟨k, hk, he⟩ := List.mem_filterMap.mp hc
          split at he <;> cases he
          have := h1 k hk
          show _ + _ < _ + _
          omega
  refine Memory.wf_iff.mpr ⟨hrise _ List.pairwise_lt_range, fun c hc => ?_⟩
  obtain ⟨k, hk, he⟩ := List.mem_filterMap.mp hc
  split at he <;> cases he
  next hz =>
    simp only [List.mem_range, fontLen] at hk
    exact ⟨by show _ + _ < 4096; omega, fun e => hz e.symm⟩

/-- A lookup below a bound, of the entries below it. -/
theorem Memory.lookup_below (m : List Host.Cell) (b a : Nat) :
    Memory.lookup (m.filter fun c => decide (c.1 < b)) a = if a < b then Memory.lookup m a else none := by
  induction m with
  | nil => simp
  | cons e m ih =>
    obtain ⟨k, d⟩ := e
    rw [List.filter_cons]
    split
    · next h =>
      simp only [decide_eq_true_eq] at h
      simp only [Memory.lookup, ih]
      by_cases hk : k = a
      · subst hk; simp [h]
      · simp [hk]
    · next h =>
      simp only [decide_eq_true_eq] at h
      rw [ih]
      simp only [Memory.lookup]
      by_cases hk : k = a
      · subst hk; simp [h]
      · simp [hk]

/-- Unlisting what is at or above a bound keeps the canonical form. -/
theorem Memory.wf_below {p : Params} {m : List Host.Cell} (hm : Memory.wf p m = true) (b : Nat) :
    Memory.wf p (m.filter fun c => decide (c.1 < b)) = true := by
  obtain ⟨hr, hall⟩ := Memory.wf_iff.mp hm
  refine Memory.wf_iff.mpr ⟨?_, fun c hc => hall c (List.mem_of_mem_filter hc)⟩
  clear hall hm
  induction m with
  | nil => rfl
  | cons e m ih =>
    rw [List.filter_cons]
    split
    · exact Memory.rising_cons (ih (Memory.rising_tail hr)) fun c hc =>
        Memory.rising_head_lt hr c (List.mem_of_mem_filter hc)
    · exact ih (Memory.rising_tail hr)

/-- What the font install leaves (R261). -/
theorem State.byte_installFont (s : State) (a : Nat) :
    s.installFont.byte a =
      if h : s.params.fontBase.val ≤ a ∧ a < s.params.fontBase.val + 80 then
        s.params.fontData[a - s.params.fontBase.val]'(by omega)
      else s.byte a := by
  rw [show s.installFont.byte a = _ from
    State.byte_writeList s s.params.fontBase.val s.params.fontData.toList a]
  simp only [Vector.length_toList, Vector.getElem_toList]

/-- What Reset leaves in memory (R262). -/
theorem State.byte_resetProc (s : State) (a : Nat) :
    s.resetProc.byte a = if a < progStart then s.byte a else 0 := by
  show Memory.read s.params (s.mem.filter fun c => decide (c.1 < progStart)) a = _
  rw [Memory.read, Memory.lookup_below]
  split
  · rfl
  · rw [Option.getD_none, Memory.initial_of_progStart_le _ (by omega)]

/-- The font install keeps the canonical form. -/
theorem State.wf_installFont {s : State} (h : Memory.wf s.params s.mem = true) :
    Memory.wf s.installFont.params s.installFont.mem = true := by
  have := s.params.fontBase.isLt
  exact Memory.wf_writeList _ h (by simp only [Vector.length_toList, memSize]; omega)

/-- Reset keeps the canonical form. -/
theorem State.wf_resetProc {s : State} (h : Memory.wf s.params s.mem = true) :
    Memory.wf s.resetProc.params s.resetProc.mem = true := Memory.wf_below h progStart

/-- A load that answers a state keeps the canonical form (R263). -/
theorem State.wf_load {s t : State} {image : List Byte} (h : Memory.wf s.params s.mem = true)
    (ht : s.load image = .loaded t) : Memory.wf t.params t.mem = true := by
  unfold State.load at ht
  split at ht
  · next hl =>
    cases ht
    exact Memory.wf_writeList _ h (by simp only [progStart, memSize]; simp only [maxProgram] at hl; omega)
  · cases ht

/-- Placing a word keeps the canonical form. -/
theorem State.wf_placeWord {s : State} (h : Memory.wf s.params s.mem = true) (w : Word) :
    Memory.wf (s.placeWord w).params (s.placeWord w).mem = true := by
  refine Memory.wf_writeList _ h ?_
  show s.placeAddr.toNat + 2 ≤ memSize
  unfold State.placeAddr
  split
  · omega
  · decide

end Sys2Proof.Machine
end

