-- ==== Sys2Proof/Laws/Cycle.lean ====
section
/-! SUPPORT. What a cycle and an event of the execution loop can do (spec/40_cycle.md), said once. -/

namespace Sys2Proof.Machine

/-- A decrement with saturation (R232). -/
theorem satDec_toNat : ∀ b : Byte, (satDec b).toNat = b.toNat - 1 := by decide

/-- A failure as the closed form of Safety: its record, and Halted if it halts (R221 to R224). -/
theorem State.fail_eq_logged (s : State) (i : Instr) (f : Failure) :
    s.fail i f = s.logged f (encode i) (f.halts s.params.haltOnFault) := rfl

/-- A cycle fails to fetch, or fails to decode, or executes (R100). -/
theorem State.cycle_cases (s : State) :
    (memSize ≤ s.pc.toNat + 1 ∧ s.cycle = .next (s.countSlot.raise .fetchOutOfRange s.pc none)) ∨
    (s.pc.toNat + 1 < memSize ∧ ∃ e, decodeWord s.wordAtPc = .error e ∧
      s.cycle = .next (s.countSlot.advance.raise .unknownOpcode s.pc (some s.wordAtPc))) ∨
    (s.pc.toNat + 1 < memSize ∧ ∃ i, decodeWord s.wordAtPc = .ok i ∧ s.cycle = exec i s.atExecute) := by
  rcases s.fetch_cases with ⟨h1, h2⟩ | ⟨h1, h2⟩
  · exact .inl ⟨h1, by rw [State.cycle, h2]⟩
  · have hw : s.fetch = some s.wordAtPc := h2
    cases hd : decodeWord s.wordAtPc with
    | error e => exact .inr (.inl ⟨h1, e, rfl, by rw [State.cycle, hw]; simp only [hd]⟩)
    | ok i => exact .inr (.inr ⟨h1, i, rfl, by rw [State.cycle, hw]; simp only [hd]; rfl⟩)

/-- What a step that answers a next state did: the engine was Running, and it was one of the five events (R107). -/
theorem step_cases {s t : State} (h : step s = .next t) : s.run = .running ∧
    ((s.loop = .snapshot ∧ t = s.takeSnapshot) ∨
     (s.loop = .batch ∧ s.slot < s.params.instrPerFrame ∧ s.cycle = .next t) ∨
     (s.loop = .batch ∧ s.params.instrPerFrame ≤ s.slot ∧ t = s.tickTimers) ∨
     (s.loop = .present ∧ t = s.presentFrame) ∨ (s.loop = .close ∧ t = s.checkClose)) := by
  simp only [step, State.nextEvent] at h
  split at h
  · cases h
  · next hr =>
    refine ⟨hr, ?_⟩
    split at h
    · next hl => cases h; exact .inl ⟨hl, rfl⟩
    · next hl =>
      split at h
      · next hs => exact .inr (.inl ⟨hl, hs, h⟩)
      · next hs => cases h; exact .inr (.inr (.inl ⟨hl, Nat.le_of_not_lt hs, rfl⟩))
    · next hl => cases h; exact .inr (.inr (.inr (.inl ⟨hl, rfl⟩)))
    · next hl => cases h; exact .inr (.inr (.inr (.inr ⟨hl, rfl⟩)))
    · cases h
    · cases h

/-- A step in a batch with budget left is a cycle (R107). -/
theorem step_inBatch {s : State} (h : s.inBatch) : step s = s.cycle := by
  obtain ⟨h1, h2, h3⟩ := h
  simp [step, State.nextEvent, h1, h2, h3]

end Sys2Proof.Machine
end

