-- ==== Sys2Proof/Laws/Decode.lean ====
section
/-! SUPPORT. How fields read masks and placed operands (spec/30_encoding.md R71), from which both decoders and the
encoder are compared. -/

namespace Sys2Proof

/-! A field of a conjunction or a disjunction. -/

theorem opField_and (a b : Word) : opField (a &&& b) = opField a &&& opField b := BitVec.extractLsb'_and
theorem nField_and (a b : Word) : nField (a &&& b) = nField a &&& nField b := BitVec.extractLsb'_and
theorem kkField_and (a b : Word) : kkField (a &&& b) = kkField a &&& kkField b := BitVec.extractLsb'_and
theorem opField_or (a b : Word) : opField (a ||| b) = opField a ||| opField b := BitVec.extractLsb'_or
theorem xField_or (a b : Word) : xField (a ||| b) = xField a ||| xField b := BitVec.extractLsb'_or
theorem yField_or (a b : Word) : yField (a ||| b) = yField a ||| yField b := BitVec.extractLsb'_or
theorem nField_or (a b : Word) : nField (a ||| b) = nField a ||| nField b := BitVec.extractLsb'_or
theorem kkField_or (a b : Word) : kkField (a ||| b) = kkField a ||| kkField b := BitVec.extractLsb'_or
theorem nnnField_or (a b : Word) : nnnField (a ||| b) = nnnField a ||| nnnField b := BitVec.extractLsb'_or

/-! A field of a placed operand. -/

theorem opField_zext12 (a : Addr12) : opField (a.setWidth 16) = 0 := by
  apply BitVec.eq_of_toNat_eq
  have := a.isLt
  simp only [opField, BitVec.extractLsb'_toNat, BitVec.toNat_setWidth, Nat.shiftRight_eq_div_pow]
  show _ = 0
  omega

theorem nnnField_zext12 (a : Addr12) : nnnField (a.setWidth 16) = a := by
  apply BitVec.eq_of_toNat_eq
  have := a.isLt
  simp only [nnnField, BitVec.extractLsb'_toNat, BitVec.toNat_setWidth, Nat.shiftRight_eq_div_pow]
  omega

theorem opField_zext8 : ∀ b : Byte, opField (b.setWidth 16) = 0 := by decide
theorem xField_zext8 : ∀ b : Byte, xField (b.setWidth 16) = 0 := by decide
theorem kkField_zext8 : ∀ b : Byte, kkField (b.setWidth 16) = b := by decide

theorem opField_x : ∀ a : Nibble, opField (a.setWidth 16 <<< 8) = 0 := by decide
theorem xField_x : ∀ a : Nibble, xField (a.setWidth 16 <<< 8) = a := by decide
theorem yField_x : ∀ a : Nibble, yField (a.setWidth 16 <<< 8) = 0 := by decide
theorem nField_x : ∀ a : Nibble, nField (a.setWidth 16 <<< 8) = 0 := by decide
theorem kkField_x : ∀ a : Nibble, kkField (a.setWidth 16 <<< 8) = 0 := by decide
theorem opField_y : ∀ a : Nibble, opField (a.setWidth 16 <<< 4) = 0 := by decide
theorem xField_y : ∀ a : Nibble, xField (a.setWidth 16 <<< 4) = 0 := by decide
theorem yField_y : ∀ a : Nibble, yField (a.setWidth 16 <<< 4) = a := by decide
theorem nField_y : ∀ a : Nibble, nField (a.setWidth 16 <<< 4) = 0 := by decide
theorem opField_n : ∀ a : Nibble, opField (a.setWidth 16) = 0 := by decide
theorem xField_n : ∀ a : Nibble, xField (a.setWidth 16) = 0 := by decide
theorem yField_n : ∀ a : Nibble, yField (a.setWidth 16) = 0 := by decide
theorem nField_n : ∀ a : Nibble, nField (a.setWidth 16) = a := by decide

/-! A field of a format (R73). -/

theorem opField_formA (p : Word) (a : Addr12) : opField (formA p a) = opField p := by
  simp [formA, opField_or, opField_zext12]

theorem nnnField_formA (p : Word) (a : Addr12) : nnnField (formA p a) = nnnField p ||| a := by
  simp [formA, nnnField_or, nnnField_zext12]

theorem opField_formXK (p : Word) (x : Nibble) (kk : Byte) : opField (formXK p x kk) = opField p := by
  simp [formXK, opField_or, opField_x, opField_zext8]

theorem xField_formXK (p : Word) (x : Nibble) (kk : Byte) : xField (formXK p x kk) = xField p ||| x := by
  simp [formXK, xField_or, xField_x, xField_zext8]

theorem kkField_formXK (p : Word) (x : Nibble) (kk : Byte) : kkField (formXK p x kk) = kkField p ||| kk := by
  simp [formXK, kkField_or, kkField_x, kkField_zext8]

theorem opField_formXYN (p : Word) (x y n : Nibble) : opField (formXYN p x y n) = opField p := by
  simp [formXYN, opField_or, opField_x, opField_y, opField_n]

theorem xField_formXYN (p : Word) (x y n : Nibble) : xField (formXYN p x y n) = xField p ||| x := by
  simp [formXYN, xField_or, xField_x, xField_y, xField_n]

theorem yField_formXYN (p : Word) (x y n : Nibble) : yField (formXYN p x y n) = yField p ||| y := by
  simp [formXYN, yField_or, yField_x, yField_y, yField_n]

theorem nField_formXYN (p : Word) (x y n : Nibble) : nField (formXYN p x y n) = nField p ||| n := by
  simp [formXYN, nField_or, nField_x, nField_y, nField_n]

/-- The low byte of a one-register form is its pattern's. -/
theorem kkField_formX (p : Word) (x : Nibble) : kkField (formX p x) = kkField p := by
  have hy : kkField ((0 : Nibble).setWidth 16 <<< 4) = 0 := by decide
  have hn : kkField ((0 : Nibble).setWidth 16) = 0 := by decide
  rw [formX, formXYN, kkField_or, kkField_or, kkField_or, kkField_x, hy, hn]
  simp

/-! A word is its fields. -/

theorem toNat_fields (w : Word) :
    w.toNat = (opField w).toNat * 4096 + (xField w).toNat * 256 + (yField w).toNat * 16 + (nField w).toNat := by
  have := w.isLt
  simp only [opField, xField, yField, nField, BitVec.extractLsb'_toNat, Nat.shiftRight_eq_div_pow]
  omega

theorem toNat_kkField (w : Word) : (kkField w).toNat = (yField w).toNat * 16 + (nField w).toNat := by
  have := w.isLt
  simp only [kkField, yField, nField, BitVec.extractLsb'_toNat, Nat.shiftRight_eq_div_pow]
  omega

theorem toNat_nnnField (w : Word) :
    (nnnField w).toNat = (xField w).toNat * 256 + (yField w).toNat * 16 + (nField w).toNat := by
  have := w.isLt
  simp only [nnnField, xField, yField, nField, BitVec.extractLsb'_toNat, Nat.shiftRight_eq_div_pow]
  omega

/-- Words with the same four nibbles are equal. -/
theorem word_ext {a b : Word} (ho : opField a = opField b) (hx : xField a = xField b) (hy : yField a = yField b)
    (hn : nField a = nField b) : a = b := by
  apply BitVec.eq_of_toNat_eq
  rw [toNat_fields a, toNat_fields b, ho, hx, hy, hn]

/-! What a masked comparison says (R74). -/

theorem masked_F000 (w p : Word) (hp : p &&& 0x0FFF#16 = 0) : w &&& 0xF000#16 = p ↔ opField w = opField p := by
  constructor
  · rintro rfl
    rw [opField_and, show opField 0xF000#16 = BitVec.allOnes 4 from rfl, BitVec.and_allOnes]
  · intro h
    have hz : ∀ f : Word → Nibble, (∀ a b, f (a &&& b) = f a &&& f b) → f 0x0FFF#16 = BitVec.allOnes 4 →
        f 0 = 0 → f p = 0 := by
      intro f hf h1 h0
      have := congrArg f hp
      rwa [hf, h1, BitVec.and_allOnes, h0] at this
    have hx := hz xField (fun _ _ => BitVec.extractLsb'_and) rfl rfl
    have hy := hz yField (fun _ _ => BitVec.extractLsb'_and) rfl rfl
    have hn := hz nField (fun _ _ => BitVec.extractLsb'_and) rfl rfl
    apply word_ext
    · rw [opField_and, show opField 0xF000#16 = BitVec.allOnes 4 from rfl, BitVec.and_allOnes, h]
    · rw [show xField (w &&& 0xF000#16) = xField w &&& xField 0xF000#16 from BitVec.extractLsb'_and, hx]
      exact BitVec.and_zero
    · rw [show yField (w &&& 0xF000#16) = yField w &&& yField 0xF000#16 from BitVec.extractLsb'_and, hy]
      exact BitVec.and_zero
    · rw [nField_and, hn]
      exact BitVec.and_zero

theorem masked_F00F (w p : Word) (hp : p &&& 0x0FF0#16 = 0) :
    w &&& 0xF00F#16 = p ↔ opField w = opField p ∧ nField w = nField p := by
  constructor
  · rintro rfl
    constructor
    · rw [opField_and, show opField 0xF00F#16 = BitVec.allOnes 4 from rfl, BitVec.and_allOnes]
    · rw [nField_and, show nField 0xF00F#16 = BitVec.allOnes 4 from rfl, BitVec.and_allOnes]
  · rintro ⟨h, hn⟩
    have hz : ∀ f : Word → Nibble, (∀ a b, f (a &&& b) = f a &&& f b) → f 0x0FF0#16 = BitVec.allOnes 4 →
        f 0 = 0 → f p = 0 := by
      intro f hf h1 h0
      have := congrArg f hp
      rwa [hf, h1, BitVec.and_allOnes, h0] at this
    have hx := hz xField (fun _ _ => BitVec.extractLsb'_and) rfl rfl
    have hy := hz yField (fun _ _ => BitVec.extractLsb'_and) rfl rfl
    apply word_ext
    · rw [opField_and, show opField 0xF00F#16 = BitVec.allOnes 4 from rfl, BitVec.and_allOnes, h]
    · rw [show xField (w &&& 0xF00F#16) = xField w &&& xField 0xF00F#16 from BitVec.extractLsb'_and, hx]
      exact BitVec.and_zero
    · rw [show yField (w &&& 0xF00F#16) = yField w &&& yField 0xF00F#16 from BitVec.extractLsb'_and, hy]
      exact BitVec.and_zero
    · rw [nField_and, show nField 0xF00F#16 = BitVec.allOnes 4 from rfl, BitVec.and_allOnes, hn]

theorem masked_F0FF (w p : Word) (hp : p &&& 0x0F00#16 = 0) :
    w &&& 0xF0FF#16 = p ↔ opField w = opField p ∧ kkField w = kkField p := by
  constructor
  · rintro rfl
    constructor
    · rw [opField_and, show opField 0xF0FF#16 = BitVec.allOnes 4 from rfl, BitVec.and_allOnes]
    · rw [kkField_and, show kkField 0xF0FF#16 = BitVec.allOnes 8 from rfl, BitVec.and_allOnes]
  · rintro ⟨h, hk⟩
    have hx : xField p = 0 := by
      have := congrArg xField hp
      rwa [show xField (p &&& 0x0F00#16) = xField p &&& xField 0x0F00#16 from BitVec.extractLsb'_and,
        show xField 0x0F00#16 = BitVec.allOnes 4 from rfl, BitVec.and_allOnes] at this
    have hyn : ∀ a b : Word, kkField a = kkField b → yField a = yField b ∧ nField a = nField b := by
      intro a b hab
      have h1 := congrArg BitVec.toNat hab
      rw [toNat_kkField, toNat_kkField] at h1
      have := (nField a).isLt
      have := (nField b).isLt
      exact ⟨BitVec.eq_of_toNat_eq (by omega), BitVec.eq_of_toNat_eq (by omega)⟩
    have hk' : kkField (w &&& 0xF0FF#16) = kkField p := by
      rw [kkField_and, show kkField 0xF0FF#16 = BitVec.allOnes 8 from rfl, BitVec.and_allOnes, hk]
    apply word_ext
    · rw [opField_and, show opField 0xF0FF#16 = BitVec.allOnes 4 from rfl, BitVec.and_allOnes, h]
    · rw [show xField (w &&& 0xF0FF#16) = xField w &&& xField 0xF0FF#16 from BitVec.extractLsb'_and, hx]
      exact BitVec.and_zero
    · exact (hyn _ _ hk').1
    · exact (hyn _ _ hk').2

theorem masked_FFFF (w p : Word) : w &&& 0xFFFF#16 = p ↔ w = p := by
  rw [show (0xFFFF#16 : Word) = BitVec.allOnes 16 from rfl, BitVec.and_allOnes]

end Sys2Proof
end

