-- ==== Sys2Proof/Laws/PerInstr.lean ====
section
/-! SUPPORT. Per instruction: its encoded word matches its row of the opcode table (spec/30_encoding.md R74, R90). -/

namespace Sys2Proof.Laws.RowMatch

/-- The mask and the match of an instruction's row (R74). -/
def row : Instr → Word × Word
  | .cls => (0xFFFF, 0x00E0)
  | .ret => (0xFFFF, 0x00EE)
  | .sys _ => (0xF000, 0x0000)
  | .jp _ => (0xF000, 0x1000)
  | .call _ => (0xF000, 0x2000)
  | .seImm _ _ => (0xF000, 0x3000)
  | .sneImm _ _ => (0xF000, 0x4000)
  | .seReg _ _ => (0xF00F, 0x5000)
  | .ldImm _ _ => (0xF000, 0x6000)
  | .addImm _ _ => (0xF000, 0x7000)
  | .ldReg _ _ => (0xF00F, 0x8000)
  | .orReg _ _ => (0xF00F, 0x8001)
  | .andReg _ _ => (0xF00F, 0x8002)
  | .xorReg _ _ => (0xF00F, 0x8003)
  | .addReg _ _ => (0xF00F, 0x8004)
  | .sub _ _ => (0xF00F, 0x8005)
  | .shr _ _ => (0xF00F, 0x8006)
  | .subn _ _ => (0xF00F, 0x8007)
  | .shl _ _ => (0xF00F, 0x800E)
  | .sneReg _ _ => (0xF00F, 0x9000)
  | .ldI _ => (0xF000, 0xA000)
  | .jpV0 _ => (0xF000, 0xB000)
  | .rnd _ _ => (0xF000, 0xC000)
  | .drw _ _ _ => (0xF000, 0xD000)
  | .skp _ => (0xF0FF, 0xE09E)
  | .sknp _ => (0xF0FF, 0xE0A1)
  | .ldVxDt _ => (0xF0FF, 0xF007)
  | .ldVxK _ => (0xF0FF, 0xF00A)
  | .ldDtVx _ => (0xF0FF, 0xF015)
  | .ldStVx _ => (0xF0FF, 0xF018)
  | .addI _ => (0xF0FF, 0xF01E)
  | .ldF _ => (0xF0FF, 0xF029)
  | .ldB _ => (0xF0FF, 0xF033)
  | .ldStore _ => (0xF0FF, 0xF055)
  | .ldLoad _ => (0xF0FF, 0xF065)

/-- The instruction's word, masked, is its row's match. -/
def Statement (i : Instr) : Prop := encode i &&& (row i).1 = (row i).2

theorem formA_masked (p : Word) (hp : p &&& 0x0FFF#16 = 0) (a : Addr12) : formA p a &&& 0xF000#16 = p :=
  (masked_F000 _ p hp).mpr (opField_formA p a)

theorem formXK_masked (p : Word) (hp : p &&& 0x0FFF#16 = 0) (x : Nibble) (kk : Byte) :
    formXK p x kk &&& 0xF000#16 = p := (masked_F000 _ p hp).mpr (opField_formXK p x kk)

theorem formXYN_masked (p : Word) (hp : p &&& 0x0FFF#16 = 0) (x y n : Nibble) :
    formXYN p x y n &&& 0xF000#16 = p := (masked_F000 _ p hp).mpr (opField_formXYN p x y n)

theorem formXY_masked (p : Word) (hp : p &&& 0x0FF0#16 = 0) (x y : Nibble) : formXY p x y &&& 0xF00F#16 = p :=
  (masked_F00F _ p hp).mpr ⟨opField_formXYN p x y 0, by simp [formXY, nField_formXYN]⟩

theorem formX_masked (p : Word) (hp : p &&& 0x0F00#16 = 0) (x : Nibble) : formX p x &&& 0xF0FF#16 = p :=
  (masked_F0FF _ p hp).mpr ⟨opField_formXYN p x 0 0, kkField_formX p x⟩

theorem cls : Statement .cls := rfl
theorem ret : Statement .ret := rfl
theorem sys (nnn : Addr12) : Statement (.sys nnn) := formA_masked _ rfl nnn
theorem jp (nnn : Addr12) : Statement (.jp nnn) := formA_masked _ rfl nnn
theorem call (nnn : Addr12) : Statement (.call nnn) := formA_masked _ rfl nnn
theorem seImm (x : Nibble) (kk : Byte) : Statement (.seImm x kk) := formXK_masked _ rfl x kk
theorem sneImm (x : Nibble) (kk : Byte) : Statement (.sneImm x kk) := formXK_masked _ rfl x kk
theorem seReg (x y : Nibble) : Statement (.seReg x y) := formXY_masked _ rfl x y
theorem ldImm (x : Nibble) (kk : Byte) : Statement (.ldImm x kk) := formXK_masked _ rfl x kk
theorem addImm (x : Nibble) (kk : Byte) : Statement (.addImm x kk) := formXK_masked _ rfl x kk
theorem ldReg (x y : Nibble) : Statement (.ldReg x y) := formXY_masked _ rfl x y
theorem orReg (x y : Nibble) : Statement (.orReg x y) := formXY_masked _ rfl x y
theorem andReg (x y : Nibble) : Statement (.andReg x y) := formXY_masked _ rfl x y
theorem xorReg (x y : Nibble) : Statement (.xorReg x y) := formXY_masked _ rfl x y
theorem addReg (x y : Nibble) : Statement (.addReg x y) := formXY_masked _ rfl x y
theorem sub (x y : Nibble) : Statement (.sub x y) := formXY_masked _ rfl x y
theorem shr (x y : Nibble) : Statement (.shr x y) := formXY_masked _ rfl x y
theorem subn (x y : Nibble) : Statement (.subn x y) := formXY_masked _ rfl x y
theorem shl (x y : Nibble) : Statement (.shl x y) := formXY_masked _ rfl x y
theorem sneReg (x y : Nibble) : Statement (.sneReg x y) := formXY_masked _ rfl x y
theorem ldI (nnn : Addr12) : Statement (.ldI nnn) := formA_masked _ rfl nnn
theorem jpV0 (nnn : Addr12) : Statement (.jpV0 nnn) := formA_masked _ rfl nnn
theorem rnd (x : Nibble) (kk : Byte) : Statement (.rnd x kk) := formXK_masked _ rfl x kk
theorem drw (x y n : Nibble) : Statement (.drw x y n) := formXYN_masked _ rfl x y n
theorem skp (x : Nibble) : Statement (.skp x) := formX_masked _ rfl x
theorem sknp (x : Nibble) : Statement (.sknp x) := formX_masked _ rfl x
theorem ldVxDt (x : Nibble) : Statement (.ldVxDt x) := formX_masked _ rfl x
theorem ldVxK (x : Nibble) : Statement (.ldVxK x) := formX_masked _ rfl x
theorem ldDtVx (x : Nibble) : Statement (.ldDtVx x) := formX_masked _ rfl x
theorem ldStVx (x : Nibble) : Statement (.ldStVx x) := formX_masked _ rfl x
theorem addI (x : Nibble) : Statement (.addI x) := formX_masked _ rfl x
theorem ldF (x : Nibble) : Statement (.ldF x) := formX_masked _ rfl x
theorem ldB (x : Nibble) : Statement (.ldB x) := formX_masked _ rfl x
theorem ldStore (x : Nibble) : Statement (.ldStore x) := formX_masked _ rfl x
theorem ldLoad (x : Nibble) : Statement (.ldLoad x) := formX_masked _ rfl x

end Sys2Proof.Laws.RowMatch
end

