-- ==== Sys2Proof/Tests/Slice0.lean ====
section
/-! SUPPORT. The model's own tests. Expected results come from spec/95_test_vectors.md (the vector is named at each
test) or from an example in the cited rule; each is about one step from a small start state. -/

namespace Sys2Proof.Tests

open Sys2Proof.Machine

/-- Run the word `w` as the next instruction and check the state after. -/
def after (w : Nat) (s : State) (check : State → Bool) : Bool :=
  match step (s.withFetchWord 16 w) with
  | .next t => check t
  | _ => false

/-- One step, checked. -/
def stepped (s : State) (check : State → Bool) : Bool :=
  match step s with
  | .next t => check t
  | _ => false

/-- The start state of the vectors: after Reset, inside a frame. -/
def s0 : State := { State.reset with loop := .batch }

/-- `V1 = a`, `V2 = b`. -/
def s12 (a b : Byte) : State := (s0.setReg 1 a).setReg 2 b

/-- Bytes placed in memory. -/
def withBytes (s : State) (a : Nat) (bs : List Byte) : State :=
  { s with mem := Memory.writeList s.params s.mem a bs }

/-! ## WellFormed: the ill-formed terms are refused (R79) -/

theorem test_wf_sys_00E0_refused : (Instr.sys 0x0E0).wf = false := by decide
theorem test_wf_sys_00EE_refused : (Instr.sys 0x0EE).wf = false := by decide
theorem test_wf_sys_00E1_accepted : (Instr.sys 0x0E1).wf = true := by decide

/-! ## Decode: words written out from R74, and the unknown words of S1 -/

/-- A word of the table, decoded. -/
def dec (w : Nat) : Option Instr := decodeTableWord 16 w

theorem test_decode_rows_1_to_7 :
    dec 0b0000000011100000 = some .cls ∧ dec 0b0000000011101110 = some .ret ∧
    dec 0b0000000100100011 = some (.sys 0x123) ∧ dec 0b0001101010111100 = some (.jp 0xABC) ∧
    dec 0b0010001100000000 = some (.call 0x300) ∧ dec 0b0011001100010000 = some (.seImm 3 0x10) ∧
    dec 0b0100001100010001 = some (.sneImm 3 0x11) := by decide

theorem test_decode_rows_8_to_14 :
    dec 0b0101000100100000 = some (.seReg 1 2) ∧ dec 0b0110101000101011 = some (.ldImm 10 0x2B) ∧
    dec 0b0111000000000001 = some (.addImm 0 1) ∧ dec 0b1000000100100000 = some (.ldReg 1 2) ∧
    dec 0b1000000100100001 = some (.orReg 1 2) ∧ dec 0b1000000100100010 = some (.andReg 1 2) ∧
    dec 0b1000000100100011 = some (.xorReg 1 2) := by decide

theorem test_decode_rows_15_to_21 :
    dec 0b1000000100100100 = some (.addReg 1 2) ∧ dec 0b1000000100100101 = some (.sub 1 2) ∧
    dec 0b1000000100100110 = some (.shr 1 2) ∧ dec 0b1000000100100111 = some (.subn 1 2) ∧
    dec 0b1000000100101110 = some (.shl 1 2) ∧ dec 0b1001101010110000 = some (.sneReg 10 11) ∧
    dec 0b1010001011110000 = some (.ldI 0x2F0) := by decide

theorem test_decode_rows_22_to_28 :
    dec 0b1011001100000000 = some (.jpV0 0x300) ∧ dec 0b1100001100001111 = some (.rnd 3 0x0F) ∧
    dec 0b1101000100100101 = some (.drw 1 2 5) ∧ dec 0b1110000110011110 = some (.skp 1) ∧
    dec 0b1110000110100001 = some (.sknp 1) ∧ dec 0b1111010000000111 = some (.ldVxDt 4) ∧
    dec 0b1111001100001010 = some (.ldVxK 3) := by decide

theorem test_decode_rows_29_to_35 :
    dec 0b1111010000010101 = some (.ldDtVx 4) ∧ dec 0b1111010000011000 = some (.ldStVx 4) ∧
    dec 0b1111000000011110 = some (.addI 0) ∧ dec 0b1111010100101001 = some (.ldF 5) ∧
    dec 0b1111010100110011 = some (.ldB 5) ∧ dec 0b1111001001010101 = some (.ldStore 2) ∧
    dec 0b1111111101100101 = some (.ldLoad 15) := by decide

theorem test_decode_unknown_words :
    [0x5121, 0x8008, 0x800F, 0x9AB1, 0xE19F, 0xF00B, 0xF0FF].map dec = [none, none, none, none, none, none, none] := by
  decide

theorem test_decode_rejects_by_name :
    decode [0x51, 0x21] = .error (.unknownOpcode 0x5121) ∧ decode [0x51] = .error .truncated := ⟨rfl, rfl⟩

theorem test_decode_scan_agrees_on_S1 :
    [0x00E0, 0x00EE, 0x00E1, 0x0000, 0x0FFF, 0x5120, 0x5121, 0x8008, 0x800E, 0x800F, 0x9AB0, 0xE19E, 0xF00A,
      0xFF65, 0xD000].map (fun w => decodeScan w) =
    [0x00E0, 0x00EE, 0x00E1, 0x0000, 0x0FFF, 0x5120, 0x5121, 0x8008, 0x800E, 0x800F, 0x9AB0, 0xE19E, 0xF00A,
      0xFF65, 0xD000].map (fun w => decodeDirect w) := by decide

/-- The words of R74's examples, assembled (R90). -/
theorem test_encode_examples :
    encode (.call 0x300) = 0x2300 ∧ encode (.ldImm 10 0x2B) = 0x6A2B ∧ encode (.shl 1 2) = 0x812E ∧
    encode (.drw 1 2 5) = 0xD125 ∧ encode (.ldB 5) = 0xF533 := by decide

/-! ## Control flow -/

/-- V-C24. -/
theorem test_sys_is_nop : after 0x0123 s0 (fun t =>
    t = { s0.withFetchWord 16 0x0123 with pc := 0x202, slot := 1 }) = true := by decide

/-- V-C6. -/
theorem test_ret_pops_last : after 0x00EE { s0 with stack := [0x206, 0x40A] } (fun t =>
    t.pc == 0x40A && t.stack == [0x206]) = true := by decide

/-- V-C7. -/
theorem test_ret_underflow : after 0x00EE s0 (fun t =>
    t.pc == 0x202 && t.faults == [⟨.stackUnderflow, some 0x200, some 0x00EE⟩] && t.run == .running) = true := by decide

/-- V-C1. -/
theorem test_jp : after 0x1ABC s0 (fun t => t.pc == 0xABC) = true := by decide

/-- V-C5: the pushed address is past the call. -/
theorem test_call_pushes_next : after 0x2100 { s0 with pc := 0x204 } (fun t =>
    t.pc == 0x100 && t.stack == [0x206]) = true := by decide

/-- V-C8. -/
theorem test_call_overflow : after 0x2300 { s0 with stack := List.replicate 16 0x202 } (fun t =>
    t.pc == 0x202 && t.faults == [⟨.stackOverflow, some 0x200, some 0x2300⟩] && t.stack.length == 16) = true := by
  decide

/-- V-C9. -/
theorem test_jpV0 : after 0xB300 (s0.setReg 0 0x10) (fun t => t.pc == 0x310) = true := by decide

/-- V-C12. -/
theorem test_jpV0_out_of_range : after 0xBFFF (s0.setReg 0 0xFF) (fun t =>
    t.pc == 0x202 && t.faults == [⟨.addressOutOfRange 0x10FE, some 0x200, some 0xBFFF⟩]) = true := by decide

/-- V-C13, V-C14. -/
theorem test_seImm : after 0x3310 (s0.setReg 3 0x10) (fun t => t.pc == 0x204) = true ∧
    after 0x3311 (s0.setReg 3 0x10) (fun t => t.pc == 0x202) = true := by decide

/-- V-C15, V-C16. -/
theorem test_sneImm : after 0x4310 (s0.setReg 3 0x10) (fun t => t.pc == 0x202) = true ∧
    after 0x4311 (s0.setReg 3 0x10) (fun t => t.pc == 0x204) = true := by decide

/-- V-C17, V-C18. -/
theorem test_seReg : after 0x5120 (s12 7 7) (fun t => t.pc == 0x204) = true ∧
    after 0x5120 (s12 7 8) (fun t => t.pc == 0x202) = true := by decide

/-- V-C20, V-C21. -/
theorem test_sneReg : after 0x9120 (s12 7 8) (fun t => t.pc == 0x204) = true ∧
    after 0x9110 (s12 7 8) (fun t => t.pc == 0x202) = true := by decide

/-- V-C23: a skip at the end of memory does not wrap. -/
theorem test_skip_past_end : after 0x3000 { s0 with pc := 0xFFE } (fun t => t.pc == 0x1002) = true := by decide

/-! ## ALU -/

/-- V-A1, V-A2. -/
theorem test_ldImm : after 0x6A2B s0 (fun t => t.reg 10 == 0x2B) = true ∧
    after 0x6F00 (s0.setReg 15 0x55) (fun t => t.reg 15 == 0) = true := by decide

/-- V-A3: no carry flag. -/
theorem test_addImm_no_flag : after 0x7001 ((s0.setReg 0 0xFF).setReg 15 0x55) (fun t =>
    t.reg 0 == 0 && t.reg 15 == 0x55) = true := by decide

/-- V-A6. -/
theorem test_ldReg : after 0x8120 (s12 0xAA 0x55) (fun t => t.reg 1 == 0x55 && t.reg 2 == 0x55) = true := by decide

/-- V-L1, V-L5: the quirk reads the stored result. -/
theorem test_orReg : after 0x8121 ((s12 0x0F 0xF0).setReg 15 1) (fun t => t.reg 1 == 0xFF && t.reg 15 == 0) = true ∧
    after 0x8F31 (s0.setReg 3 0x80) (fun t => t.reg 15 == 1) = true := by decide

/-- V-L2, V-L6. -/
theorem test_andReg : after 0x8122 ((s12 0x3C 0x0F).setReg 15 0x77) (fun t =>
      t.reg 1 == 0x0C && t.reg 15 == 0) = true ∧
    after 0x8F32 ((s0.setReg 3 0x7F).setReg 15 0x80) (fun t => t.reg 15 == 0) = true := by decide

/-- V-L3, V-L7. -/
theorem test_xorReg : after 0x8123 (s12 0xFF 0x0F) (fun t => t.reg 1 == 0xF0 && t.reg 15 == 0) = true ∧
    after 0x8F33 ((s0.setReg 3 0x81).setReg 15 1) (fun t => t.reg 15 == 1) = true := by decide

/-- V-P1 (S4), V-P2. -/
theorem test_addReg : after 0x8124 (s12 0xFF 0x01) (fun t => t.reg 1 == 0 && t.reg 15 == 1) = true ∧
    after 0x8124 (s12 0x7F 0x80) (fun t => t.reg 1 == 0xFF && t.reg 15 == 0) = true := by decide

/-- V-S2 (S6), V-S6. -/
theorem test_sub : after 0x8125 (s12 0 1) (fun t => t.reg 1 == 0xFF && t.reg 15 == 0) = true ∧
    after 0x8F15 ((s0.setReg 1 5).setReg 15 6) (fun t => t.reg 15 == 1) = true := by decide

/-- V-S7, V-S8. -/
theorem test_subn : after 0x8127 (s12 1 3) (fun t => t.reg 1 == 2 && t.reg 15 == 1) = true ∧
    after 0x8127 (s12 3 1) (fun t => t.reg 1 == 0xFE && t.reg 15 == 0) = true := by decide

/-- V-H1, V-H4. -/
theorem test_shr : after 0x8126 (s12 0xAA 0x05) (fun t => t.reg 1 == 2 && t.reg 15 == 1 && t.reg 2 == 5) = true ∧
    after 0x8F26 (s12 0 3) (fun t => t.reg 15 == 1) = true := by decide

/-- V-H6, V-H10. -/
theorem test_shl : after 0x812E (s12 0 0x81) (fun t => t.reg 1 == 2 && t.reg 15 == 1 && t.reg 2 == 0x81) = true ∧
    after 0x81FE ((s0.setReg 1 0x33).setReg 15 1) (fun t => t.reg 1 == 2 && t.reg 15 == 0) = true := by decide

/-- V-R1: the draw B7 masked. -/
theorem test_rnd_masks_draw : (rndWith 0xB7 3 0x0F s0).reg 3 = 0x07 := by decide

/-- R154: one draw is consumed. -/
theorem test_rnd_consumes_one_draw : after 0xC30F s0 (fun t => t.rndDraws == 1 && t.pc == 0x202) = true := by decide

/-! ## Index register and memory -/

/-- V-M1. -/
theorem test_ldI : after 0xA2F0 s0 (fun t => t.iReg == 0x2F0) = true := by decide

/-- V-M3, V-M4. -/
theorem test_addI : after 0xF01E { s0.setReg 0 1 with iReg := 0x0FFF } (fun t => t.iReg == 0x1000) = true ∧
    after 0xF01E { s0.setReg 0 2 with iReg := 0xFFFF } (fun t => t.iReg == 0x0001) = true := by decide

/-- V-M6, V-M8. -/
theorem test_ldF : after 0xF529 (s0.setReg 5 0x1A) (fun t => t.iReg == 0x32) = true ∧
    after 0xF529 { s0.setReg 5 0x0A with params := { s0.params with fontBase := 0x50 } } (fun t =>
      t.iReg == 0x82) = true := by decide

/-- V-M9 (S11). -/
theorem test_ldB : after 0xF533 { s0.setReg 5 234 with iReg := 0x300 } (fun t =>
    t.bytesAt 0x300 3 == [2, 3, 4] && t.iReg == 0x300) = true := by decide

/-- V-M14. -/
theorem test_ldB_out_of_range : after 0xF533 { s0.setReg 5 0x64 with iReg := 0xFFE } (fun t =>
    t.faults == [⟨.memoryOutOfRange 0xFFE 3, some 0x200, some 0xF533⟩] && t.pc == 0x202 && t.run == .halted &&
      t.bytesAt 0xFFE 2 == [0, 0]) = true := by decide

/-- V-M15. -/
theorem test_ldStore : after 0xF255 { ((s0.setReg 0 1).setReg 1 2).setReg 2 3 with iReg := 0x300 } (fun t =>
    t.bytesAt 0x300 4 == [1, 2, 3, 0] && t.iReg == 0x303) = true := by decide

/-- V-M18. -/
theorem test_ldStore_out_of_range : after 0xFF55 { s0.setReg 0 9 with iReg := 0xFF1 } (fun t =>
    t.faults == [⟨.memoryOutOfRange 0xFF1 16, some 0x200, some 0xFF55⟩] && t.iReg == 0xFF1 && t.run == .halted &&
      t.byte 0xFF1 == 0) = true := by decide

/-- V-M19. -/
theorem test_ldLoad : after 0xF365 { withBytes s0 0x300 [0x0A, 0x0B, 0x0C, 0x0D] with iReg := 0x300 } (fun t =>
    t.regBlock 4 == [0x0A, 0x0B, 0x0C, 0x0D, 0] && t.iReg == 0x304) = true := by decide

/-- V-M22, V-M23 (the first byte of glyph 0). -/
theorem test_ldLoad_edges : after 0xF065 { s0 with iReg := 0x1000 } (fun t =>
      t.faults == [⟨.memoryOutOfRange 0x1000 1, some 0x200, some 0xF065⟩] && t.run == .halted) = true ∧
    after 0xF065 s0 (fun t => t.reg 0 == 0xF0) = true := by decide

/-! ## Display, keyboard, timers -/

/-- A display with one pixel set. -/
def onePixel (px py : Nat) : Grid := (Grid.putPixel Grid.clear px py).1

/-- S3, V-G1. -/
theorem test_cls : after 0x00E0 { s0 with display := onePixel 63 31 } (fun t =>
    t.display == Grid.clear && t.reg 15 == 0) = true := by decide

/-- V-G6: a collision, with the bit order of D13. -/
theorem test_drw_collision : after 0xD121 { withBytes s0 0x300 [0xC0] with iReg := 0x300, display := onePixel 0 0 }
    (fun t => !t.pixel 0 0 && t.pixel 1 0 && t.reg 15 == 1) = true := by decide

/-- V-G4: the anchor column 60, columns 64 to 67 clipped. -/
theorem test_drw_clips : after 0xD121 { withBytes (s12 60 0) 0x300 [0xFF] with iReg := 0x300 } (fun t =>
    t.pixel 60 0 && t.pixel 63 0 && !t.pixel 0 0 && !t.pixel 59 0 && t.reg 15 == 0) = true := by decide

/-- V-K1, V-K5. -/
theorem test_skp : after 0xE19E { s0.setReg 1 5 with kbdMask := 0x0020 } (fun t => t.pc == 0x204) = true ∧
    after 0xE19E { s0.setReg 1 21 with kbdMask := 0xFFFF } (fun t => t.pc == 0x202) = true := by decide

/-- V-K3, V-K6. -/
theorem test_sknp : after 0xE1A1 { s0.setReg 1 5 with kbdMask := 0x0020 } (fun t => t.pc == 0x202) = true ∧
    after 0xE1A1 { s0.setReg 1 21 with kbdMask := 0xFFFF } (fun t => t.pc == 0x204) = true := by decide

/-- V-T2. -/
theorem test_ldVxDt : after 0xF407 { s0 with dt := 0x3C } (fun t => t.reg 4 == 0x3C) = true := by decide

/-- V-K8, V-K10: the two kinds of answer, from the state with `PC` advanced. -/
theorem test_ldVxK : (keyWaitWith none 3 { s0 with pc := 0x202 }).pc = 0x200 ∧
    (keyWaitWith (some 12) 15 { s0 with pc := 0x202 }).reg 15 = 0x0C := by decide

/-- R196: exactly one query is made, whatever the answer. -/
theorem test_ldVxK_queries_once : ∃ t, exec (.ldVxK 3) s0 = .next t ∧ t.keyDraws = 1 := by
  refine ⟨_, rfl, ?_⟩
  unfold keyWaitWith
  split <;> rfl

/-- V-T1. -/
theorem test_ldDtVx : after 0xF415 (s0.setReg 4 0x3C) (fun t => t.dt == 0x3C && t.st == 0) = true := by decide

/-- V-T3. -/
theorem test_ldStVx : after 0xF418 (s0.setReg 4 2) (fun t => t.st == 2 && t.dt == 0) = true := by decide

/-! ## The cycle and the frame -/

/-- V-F1, V-F2. -/
theorem test_unknown_word : after 0x5121 s0 (fun t =>
      t.faults == [⟨.unknownOpcode, some 0x200, some 0x5121⟩] && t.pc == 0x202 && t.run == .running) = true ∧
    after 0x5121 { s0 with params := { s0.params with haltOnFault := true } } (fun t => t.run == .halted) = true := by
  decide

/-- V-F3. -/
theorem test_fetch_out_of_range : stepped { s0 with pc := 0x0FFF } (fun t =>
    t.faults == [⟨.fetchOutOfRange, some 0xFFF, none⟩] && t.pc == 0xFFF && t.run == .halted && t.slot == 1) = true := by
  decide

/-- V-F6: an odd `PC` fetches `M[PC]`, `M[PC+1]`. -/
theorem test_odd_pc : stepped { withBytes s0 0x201 [0x60, 0x7A] with pc := 0x201 } (fun t =>
    t.reg 0 == 0x7A && t.pc == 0x203) = true := by decide

/-- V-T6, V-T7: the end of a batch is the tick, and the beep looks at ST before it. -/
theorem test_tick : stepped { s0 with slot := 12, dt := 0xFF, st := 1 } (fun t =>
      t.dt == 0xFE && t.st == 0 && t.beeps == 1 && t.loop == .present) = true ∧
    stepped { s0 with slot := 12 } (fun t => t.dt == 0 && t.st == 0 && t.beeps == 0) = true := by decide

/-- R107 step 1: the snapshot opens the batch. -/
theorem test_snapshot : stepped State.reset (fun t => t.slot == 0 && t.loop == .batch && t.pollDraws == 1) = true := by
  decide

/-- V-F7: Halted, no step. -/
theorem test_halted_stops : step { s0 with run := .halted } = .fault .halted := rfl

/-! ## Boot -/

/-- V-F12: an odd image; the rest of the word stays 0. -/
theorem test_load_odd_image : State.load State.reset [0x60, 0x05, 0x70] =
    .loaded { State.reset with mem := [(0x200, 0x60), (0x201, 0x05), (0x202, 0x70)] } := by decide

/-- V-F8: Reset leaves Halted, clears the log and keeps the display and low memory. -/
theorem test_reset_after_halt :
    let s := (State.resetProc { withBytes (withBytes s0 0x100 [7]) 0x300 [9] with
      run := .halted, faults := [⟨.fetchOutOfRange, some 0xFFF, none⟩], display := onePixel 3 4, pc := 0xFFF })
    s.run = .running ∧ s.pc = 0x200 ∧ s.faults = [] ∧ s.pixel 3 4 = true ∧ s.byte 0x100 = 7 ∧ s.byte 0x300 = 0 := by
  decide

end Sys2Proof.Tests
end

