-- ==== Sys2Proof/Tests/Witnesses.lean ====
section
/-! SUPPORT. For each statement with hypotheses, a concrete state and operands that meet all of them together, one for
each clause, at the boundary of its range. -/

namespace Sys2Proof.Tests.Witness

open Sys2Proof.Machine

/-- After Reset, inside a frame's batch. -/
def w0 : State := { State.reset with loop := .batch }

/-- `w0` with a word placed at `PC`. -/
def at_ (w : Word) (s : State) : State :=
  { s with mem := Memory.writeList s.params s.mem s.pc.toNat (bytesOfWord w) }

/-- `w0` with `HALT_ON_FAULT` set. -/
def strict : State := { w0 with params := { w0.params with haltOnFault := true } }

/-! ## Encoding -/

theorem witness_DecodeOfEncodeGivesBack :
    (Instr.sys 0x000).wf = true ∧ (Instr.sys 0xFFF).wf = true ∧ (Instr.drw 15 15 15).wf = true := by decide

theorem witness_EncodeOfDecodeGivesWord : decodeWord 0x0FFF#16 = .ok (.sys 0xFFF) ∧
    decodeWord 0xFF65#16 = .ok (.ldLoad 15) := ⟨rfl, rfl⟩

theorem witness_OnlyTheTwoLiteralsOverlapSys : (0x00E1#16 : Word) ≠ 0x00E0#16 ∧ (0x00E1#16 : Word) ≠ 0x00EE#16 := by
  decide

/-- Every mask and match of `DecodesAs` is met by its match. -/
theorem witness_masks :
    ([0x00EE#16, 0x00E0#16].all fun p => p &&& 0xFFFF#16 == p) = true ∧
    ([0x1000#16, 0x2000#16, 0x3000#16, 0x4000#16, 0x6000#16, 0x7000#16, 0xA000#16, 0xB000#16, 0xC000#16,
      0xD000#16].all fun p => p &&& 0xF000#16 == p) = true ∧
    ([0x5000#16, 0x8000#16, 0x8001#16, 0x8002#16, 0x8003#16, 0x8004#16, 0x8005#16, 0x8006#16, 0x8007#16, 0x800E#16,
      0x9000#16].all fun p => p &&& 0xF00F#16 == p) = true ∧
    ([0xE09E#16, 0xE0A1#16, 0xF007#16, 0xF00A#16, 0xF015#16, 0xF018#16, 0xF01E#16, 0xF029#16, 0xF033#16, 0xF055#16,
      0xF065#16].all fun p => p &&& 0xF0FF#16 == p) = true := by decide

/-! ## The cycle and the frame -/

theorem witness_StepRunsDecodedInstruction :
    let s := at_ 0x6A2B { w0 with pc := 0xFFE }
    s.inBatch ∧ s.pc.toNat + 1 < 0x1000 ∧
      decode [s.byte s.pc.toNat, s.byte (s.pc.toNat + 1)] = .ok (.ldImm 10 0x2B, []) :=
  ⟨⟨rfl, rfl, by decide⟩, by decide, rfl⟩

theorem witness_PlacedWordRunsNext : State.reset.params.wf ∧ decodeWord 0x6A2B#16 = .ok (.ldImm 10 0x2B) :=
  ⟨by decide, rfl⟩

theorem witness_EveryCycleCountsOneSlot : ({ w0 with slot := 11 } : State).inBatch := ⟨rfl, rfl, by decide⟩

theorem witness_HaltedHasNoStepUntilReset :
    ({ w0 with run := .halted } : State).run = .halted ∧
    (∃ t, step { w0 with pc := 0xFFF } = .next t ∧ t.run = .halted) ∧
    ∃ t, step (at_ 0x5121 strict) = .next t ∧ t.run = .halted :=
  ⟨rfl, ⟨_, rfl, rfl⟩, ⟨_, rfl, rfl⟩⟩

theorem witness_FrameEventsRunInOrder :
    ({ w0 with run := .halted } : State).run = .halted ∧ (State.reset.run = .running ∧ State.reset.loop = .snapshot) ∧
    (w0.run = .running ∧ ({ w0 with slot := 11 } : State).slot < w0.params.instrPerFrame ∧ w0.loop = .batch) ∧
    w0.params.instrPerFrame ≤ ({ w0 with slot := 12 } : State).slot ∧
    ({ w0 with loop := .present } : State).loop = .present ∧ ({ w0 with loop := .close } : State).loop = .close := by
  decide

theorem witness_TimerTickSaturatesAndBeeps :
    let s : State := { w0 with slot := 12, st := 1 }
    s.run = .running ∧ s.loop = .batch ∧ s.params.instrPerFrame ≤ s.slot ∧ s.st ≠ 0#8 ∧
      ({ s with st := 0 } : State).st = 0#8 := by decide

theorem witness_CloseRequestEndsTheRun :
    w0.run = .running ∧ ({ w0 with loop := .present } : State).loop = .present ∧
    ({ w0 with loop := .close } : State).loop = .close ∧ ({ w0 with loop := .ended } : State).loop = .ended := by decide

theorem witness_JumpToSelfIdles :
    let s := at_ 0x1200 w0
    s.inBatch ∧ s.pc.toNat + 1 < 0x1000 ∧ (0x200#12 : Addr12).toNat = s.pc.toNat ∧
      decodeWord s.wordAtPc = .ok (.jp 0x200) := ⟨⟨rfl, rfl, by decide⟩, by decide, by decide, rfl⟩

/-! ## Control flow -/

theorem witness_SysDoesNothing :
    (0x0123#16 : Word) &&& 0xF000#16 = 0x0000#16 ∧ (0x0123#16 : Word) ≠ 0x00E0#16 ∧ (0x0123#16 : Word) ≠ 0x00EE#16 := by
  decide

theorem witness_RetPopsIntoPc :
    ({ w0 with stack := [0x206, 0x40A] } : State).stack = [0x206] ++ [0x40A] ∧ w0.stack = [] := by decide

theorem witness_CallPushesAndJumps :
    ({ w0 with stack := List.replicate 15 0x202 } : State).stack.length < 16 ∧
    16 ≤ ({ w0 with stack := List.replicate 16 0x202 } : State).stack.length := by decide

theorem witness_JumpOffsetAddsV0 :
    (0xFFF#12 : Addr12).toNat + (w0.reg 0).toNat < 0x1000 ∧
    0x1000 ≤ (0xFFF#12 : Addr12).toNat + ((w0.setReg 0 1).reg 0).toNat := by decide

theorem witness_RegisterSkipsCompare :
    (opField 0x5121#16 = 0x5#4 ∧ nField 0x5121#16 ≠ 0#4) ∧ opField 0x9AB1#16 = 0x9#4 ∧ nField 0x9AB1#16 ≠ 0#4 := by
  decide

theorem witness_CallThenReturnRestores : ({ w0 with stack := List.replicate 15 0x202 } : State).stack.length < 16 := by
  decide

/-! ## ALU -/

theorem witness_LogicStoresResultThenFlag :
    (∃ r, r = w0.reg 1 ||| w0.reg 2) ∧ (∃ r, r = w0.reg 1 &&& w0.reg 2) ∧ (∃ r, r = w0.reg 1 ^^^ w0.reg 2) ∧
    (1 : Nibble) ≠ vf ∧ (15 : Nibble) = vf := ⟨⟨_, rfl⟩, ⟨_, rfl⟩, ⟨_, rfl⟩, by decide, by decide⟩

/-- The clause `x ≠ vf` of the arithmetic statements, and `kk = 0` of RND. -/
theorem witness_arithmetic_clauses : (14 : Nibble) ≠ vf ∧ (0 : Byte) = 0#8 := by decide

/-! ## Index register and memory -/

theorem witness_BcdStoresThreeDigits :
    ({ w0 with iReg := 0xFFD } : State).iReg.toNat + 2 < 0x1000 ∧
    0x1000 ≤ ({ w0 with iReg := 0xFFE } : State).iReg.toNat + 2 := by decide

theorem witness_BlockStoreWritesRegisters :
    ({ w0 with iReg := 0xFF0 } : State).iReg.toNat + (15 : Nibble).toNat < 0x1000 ∧
    0x1000 ≤ ({ w0 with iReg := 0xFF1 } : State).iReg.toNat + (15 : Nibble).toNat := by decide

theorem witness_BlockLoadReadsRegisters :
    ({ w0 with iReg := 0xFFF } : State).iReg.toNat + (0 : Nibble).toNat < 0x1000 ∧
    0x1000 ≤ ({ w0 with iReg := 0x1000 } : State).iReg.toNat + (0 : Nibble).toNat := by decide

theorem witness_StoredWordIsFetchedNext :
    let s : State := { (w0.setReg 0 0x6A).setReg 1 0x2B with iReg := 0xFFE, pc := 0xFFE }
    s.inBatch ∧ s.iReg = s.pc ∧ s.pc.toNat + 1 < 0x1000 ∧ decode [s.reg 0, s.reg 1] = .ok (.ldImm 10 0x2B, []) :=
  ⟨⟨rfl, rfl, by decide⟩, rfl, by decide, rfl⟩

/-! ## Display -/

/-- No row at any I; one row at the last byte; the same row one byte further fails. Both collision clauses occur. -/
theorem witness_DrawXorsSpriteAndFlagsCollision :
    ((0 : Nibble) = 0#4 ∨ ({ w0 with iReg := 0xFFFF } : State).iReg.toNat + (0 : Nibble).toNat - 1 < 0x1000) ∧
    ((1 : Nibble) = 0#4 ∨ ({ w0 with iReg := 0xFFF } : State).iReg.toNat + (1 : Nibble).toNat - 1 < 0x1000) ∧
    ((1 : Nibble) ≠ 0#4 ∧ 0x1000 ≤ ({ w0 with iReg := 0x1000 } : State).iReg.toNat + (1 : Nibble).toNat - 1) := by
  decide

theorem witness_draw_collision :
    ({ w0 with display := (Grid.putPixel Grid.clear 0 0).1 } : State).collides 0 0 1 ∧ ¬ w0.collides 0 0 0 := by
  refine ⟨⟨0, 0, by decide, by decide, by decide, by decide⟩, ?_⟩
  rintro ⟨px, py, -, -, h, -⟩
  simp only [State.spriteBit, Bool.and_eq_true, decide_eq_true_eq] at h
  omega

/-! ## Failures -/

theorem witness_InstructionFailureOnlyLogsAndAdvances :
    (at_ 0x5121 w0).inBatch ∧ decodeWord (at_ 0x5121 w0).wordAtPc = .error (.unknownOpcode 0x5121) ∧
    (at_ 0x00EE w0).inBatch ∧ (at_ 0x00EE w0).pc.toNat + 1 < 0x1000 ∧ decodeWord (at_ 0x00EE w0).wordAtPc = .ok .ret ∧
    Instr.ret.failsWith (at_ 0x00EE w0).atExecute = some .stackUnderflow ∧
    Failure.stackUnderflow.cls = .instructionLevel :=
  ⟨⟨rfl, rfl, by decide⟩, rfl, ⟨rfl, rfl, by decide⟩, by decide, rfl, by decide, rfl⟩

theorem witness_FatalFailureAlwaysHalts :
    let s := at_ 0xF033 { w0 with iReg := 0xFFE, pc := 0xFFE }
    (({ w0 with pc := 0xFFF } : State).inBatch ∧ 0x1000 ≤ ({ w0 with pc := 0xFFF } : State).pc.toNat + 1) ∧
    s.inBatch ∧ s.pc.toNat + 1 < 0x1000 ∧ decodeWord s.wordAtPc = .ok (.ldB 0) ∧
    (Instr.ldB 0).failsWith s.atExecute = some (.memoryOutOfRange 0xFFE 3) ∧
    (Failure.memoryOutOfRange 0xFFE 3).cls = .fatal :=
  ⟨⟨⟨rfl, rfl, by decide⟩, by decide⟩, ⟨rfl, rfl, by decide⟩, by decide, rfl, by decide, rfl⟩

theorem witness_InstructionsFailExactlyWhereTabled :
    (Instr.call 0x300).failsWith { w0 with stack := List.replicate 16 0x202 } = some .stackOverflow ∧
    (Instr.call 0x300).failsWith { w0 with stack := List.replicate 15 0x202 } = none := by decide

theorem witness_LogGrowsByAtMostOneRecord :
    ∃ t, step (at_ 0x5121 w0) = .next t ∧ t.faults ≠ (at_ 0x5121 w0).faults := ⟨_, rfl, by decide⟩

/-! ## Invariants and whole-machine rules -/

theorem witness_StepKeepsTheInvariant :
    w0.Inv ∧ ∃ t, step (at_ 0x6A2B w0) = .next t := by
  refine ⟨⟨rfl, by decide, ?_, by decide, by decide, ?_, ?_⟩, ⟨_, rfl⟩⟩
  · intro w h; exact absurd h (List.not_mem_nil)
  · intro w h; exact absurd h (List.not_mem_nil)
  · intro h; exact absurd h (by decide)

/-- The same with a full stack, a store at the top of memory and a recorded failure. -/
theorem witness_StepKeepsTheInvariant_full :
    let s : State := { w0 with
      stack := List.replicate 16 0x1000
      mem := [(0xFFF, 7)]
      faults := [⟨.unknownOpcode, some 0x200, some 0x5121⟩]
      pc := 0x1002
      slot := 12 }
    s.Inv ∧ ∃ t, step s = .next t := by
  refine ⟨⟨by decide, by decide, ?_, by decide, by decide, ?_, ?_⟩, ⟨_, rfl⟩⟩
  · intro w h; simp only [List.mem_replicate] at h; rw [h.2]; decide
  · intro r h; simp only [List.mem_singleton] at h; rw [h]; rfl
  · intro h; exact absurd h (by decide)

theorem witness_MemoryStackDisplayWriters :
    (∃ t, exec (.ldB 0) { w0.setReg 0 1 with iReg := 0x300 } = .next t ∧ t.mem ≠ []) ∧
    (∃ t, exec (.call 0x300) w0 = .next t ∧ t.stack ≠ w0.stack) ∧
    ∃ t, exec .cls { w0 with display := (Grid.putPixel Grid.clear 0 0).1 } = .next t ∧
      t.display ≠ (Grid.putPixel Grid.clear 0 0).1 :=
  ⟨⟨_, rfl, by decide⟩, ⟨_, rfl, by decide⟩, ⟨_, rfl, by decide⟩⟩

theorem witness_IndexTimerPcWriters :
    (∃ t, exec (.ldI 0x2F0) w0 = .next t ∧ t.iReg ≠ w0.iReg) ∧
    (∃ t, exec (.ldDtVx 4) (w0.setReg 4 9) = .next t ∧ t.dt ≠ 0) ∧
    (∃ t, exec (.ldStVx 4) (w0.setReg 4 9) = .next t ∧ t.st ≠ 0) ∧
    ∃ t, exec (.jp 0xABC) w0 = .next t ∧ t.pc ≠ w0.pc :=
  ⟨⟨_, rfl, by decide⟩, ⟨_, rfl, by decide⟩, ⟨_, rfl, by decide⟩, ⟨_, rfl, by decide⟩⟩

theorem witness_RegistersChangeOnlyAsNamed :
    (∃ t, exec (.ldImm 10 0x2B) w0 = .next t) ∧ ∃ t, exec .ret w0 = .next t ∧ t.faults ≠ w0.faults :=
  ⟨⟨_, rfl⟩, ⟨_, rfl, by decide⟩⟩

theorem witness_InstructionsIgnoreUnobservedState :
    (∃ t, exec (.ldStVx 4) (w0.setReg 4 9) = .next t ∧ t.faults = (w0.setReg 4 9).faults) ∧
    ∃ t, exec .ret w0 = .next t ∧ t.faults = w0.faults ++ [⟨.stackUnderflow, some 0x1FE, some 0x00EE⟩] :=
  ⟨⟨_, rfl, rfl⟩, ⟨_, rfl, by decide⟩⟩

/-! ## Reset and boot -/

theorem witness_ResetProcedureWrites : Memory.wf w0.params [(0x1FF, 1), (0x200, 2)] = true := by decide

/-- An image of exactly `MAX_PROGRAM` bytes, and one byte more. -/
theorem witness_LoadWritesTheImageOrAborts :
    (List.replicate 3584 (0 : Byte)).length ≤ 3584 ∧ 3584 < (List.replicate 3585 (0 : Byte)).length ∧
    State.reset.run = .running := by
  rw [List.length_replicate, List.length_replicate]
  exact ⟨by omega, by omega, rfl⟩

end Sys2Proof.Tests.Witness
end

section
/-! Construction with the font install, and the first Reset after it, against the values R42 tables
(spec/10_state.md section 8). The state they meet in is `State.resetWith`. -/

namespace Sys2Proof.Machine

/-! What an unlisted address reads as -/

/-- FONT_DATA stands at FONT_BASE (R261). -/
theorem Memory.initial_font (p : Params) (j : Fin 80) :
    Memory.initial p (p.fontBase.val + j.val) = p.fontData[j] := by
  have hin : p.fontBase.val ≤ p.fontBase.val + j.val ∧ p.fontBase.val + j.val < p.fontBase.val + fontLen :=
    ⟨Nat.le_add_right _ _, Nat.add_lt_add_left j.isLt _⟩
  rw [Memory.initial, dif_pos hin]
  simp only [Nat.add_sub_cancel_left, Fin.getElem_fin]

theorem Memory.initial_outside_font (p : Params) {a : Nat}
    (ha : a < p.fontBase.val ∨ p.fontBase.val + 80 ≤ a) : Memory.initial p a = 0 := by
  have hout : ¬(p.fontBase.val ≤ a ∧ a < p.fontBase.val + fontLen) := by
    simp only [fontLen]
    omega
  rw [Memory.initial, dif_neg hout]

/-! What the reset state reads as -/

theorem State.byte_resetWith (p : Params) (a : Nat) : (State.resetWith p).byte a = Memory.initial p a :=
  Memory.read_nil p a

theorem State.reg_resetWith (p : Params) (r : Nibble) : (State.resetWith p).reg r = 0 :=
  Vector.getElem_replicate _

theorem State.pixel_resetWith (p : Params) (px py : Nat) : (State.resetWith p).pixel px py = false :=
  Grid.pixel_clear px py

/-! What the constructed state reads as, before the font install (R260) -/

@[simp] theorem State.construct_params (p : Params) : (State.construct p).params = p := rfl

@[simp] theorem State.byte_construct (p : Params) (a : Nat) : (State.construct p).byte a = 0 :=
  Memory.read_zeros p a

/-! The two host operations meet in the reset state -/

/-- The font install over constructed memory reads, at every address, as a memory that lists no byte. -/
theorem State.byte_installFont_construct (p : Params) (a : Nat) :
    (State.construct p).installFont.byte a = Memory.initial p a := by
  rw [State.byte_installFont]
  simp only [State.construct_params, State.byte_construct]
  rfl

/-- Canonical memories that read alike are equal lists, so the font install over constructed memory lists no byte
(log entry 10). -/
theorem State.mem_installFont_construct (p : Params) : (State.construct p).installFont.mem = [] :=
  Memory.ext_of_read (p := p) (State.wf_installFont (s := State.construct p) (Memory.wf_zeros p))
    (Memory.wf_nil p) (State.byte_installFont_construct p)

/-- R42, "Construction": engine creation plus the font install. -/
theorem State.installFont_construct (p : Params) : (State.construct p).installFont = State.resetWith p :=
  congrArg (fun m => { State.resetWith p with mem := m }) (State.mem_installFont_construct p)

/-- Reset leaves a state that already stands at the tabled values, the model's own fields too. -/
theorem State.resetProc_resetWith (p : Params) : (State.resetWith p).resetProc = State.resetWith p := rfl

/-- Settles O56: construction with the font install is the reset state, because both memories are canonical and read
alike; Reset keeps that state; and its bytes are FONT_DATA in the font's place and 0 elsewhere. -/
theorem constructionAndResetValues : Obligations.ConstructionAndResetValues := by
  unfold Obligations.ConstructionAndResetValues
  intro p
  have hprogram : ∀ a, 0x200 ≤ a → a < 0x1000 → (State.resetWith p).byte a = 0 := fun a ha _ =>
    (State.byte_resetWith p a).trans (Memory.initial_of_progStart_le p ha)
  have hfont : ∀ j : Fin 80, (State.resetWith p).byte (p.fontBase.val + j.val) = p.fontData[j] := fun j =>
    (State.byte_resetWith p _).trans (Memory.initial_font p j)
  have hrest : ∀ a, a < p.fontBase.val ∨ p.fontBase.val + 80 ≤ a → (State.resetWith p).byte a = 0 := fun a ha =>
    (State.byte_resetWith p a).trans (Memory.initial_outside_font p ha)
  have hreset : (State.construct p).installFont.resetProc = State.resetWith p := by
    rw [State.installFont_construct, State.resetProc_resetWith]
  exact ⟨State.resetWith p, rfl, State.installFont_construct p, hreset, State.reg_resetWith p, rfl, rfl, rfl, rfl, rfl,
    hprogram, hfont, hrest, fun px py _ _ => State.pixel_resetWith p px py, rfl, rfl, rfl, rfl⟩

end Sys2Proof.Machine
end

section
/-! What an instruction and a cycle can do to the state around the program: the parameters, the snapshot, `run`, the
log, the slot count, the place in the frame and the counters of the host's answers and outputs. Only an event of the
frame or a failure writes them, and an instruction fails exactly on R220's conditions. -/

namespace Sys2Proof.Machine

/-! The part of the state that a completing instruction leaves alone -/

/-- The fields of a state that no instruction writes unless it fails (R36, R38, R39, R41 and the model's own). -/
structure LoopState where
  params : Params
  kbdMask : BitVec 16
  run : RunState
  faults : List FaultRecord
  slot : Nat
  loop : LoopPos
  pollDraws : Nat
  closeDraws : Nat
  beeps : Nat
  presents : Nat

/-- The `LoopState` of a state; a write outside it leaves it as it is. -/
def State.loopState (s : State) : LoopState :=
  { params := s.params, kbdMask := s.kbdMask, run := s.run, faults := s.faults, slot := s.slot, loop := s.loop
    pollDraws := s.pollDraws, closeDraws := s.closeDraws, beeps := s.beeps, presents := s.presents }

section
variable (s : State)

@[simp] theorem State.loopState_setI (w : Word) : (s.setI w).loopState = s.loopState := rfl

@[simp] theorem State.loopState_setRegs (k : Nat) (bs : List Byte) : (s.setRegs k bs).loopState = s.loopState := by
  simp [State.loopState]

@[simp] theorem State.loopState_setLogic (x : Nibble) (r : Byte) : (s.setLogic x r).loopState = s.loopState := by
  simp [State.loopState]

@[simp] theorem State.loopState_skip (c : Bool) : (s.skip c).loopState = s.loopState := by
  rw [State.skip_eq]; rfl

@[simp] theorem State.loopState_keyWaitWith (k : Option Nibble) (x : Nibble) :
    (keyWaitWith k x s).loopState = s.loopState := by
  cases k <;> rfl

end

/-! What an instruction can do -/

/-- Outside R220's conditions the instruction completes and leaves the `loopState`; on one of them it raises that
failure in the state it executes in (R11, R104, R222). -/
def ExecOutcome (i : Instr) (s : State) : Prop :=
  (i.failsWith s = none ∧ ∃ t, exec i s = .next t ∧ t.loopState = s.loopState) ∨
    ∃ f, i.failsWith s = some f ∧ exec i s = .next (s.fail i f)

theorem execOutcome_ret (s : State) : ExecOutcome .ret s := by
  rcases s.pop_cases with ⟨w, rest, hs, hp⟩ | ⟨hs, hp⟩
  · exact .inl ⟨by simp [Instr.failsWith, hs], (s.setStack rest).setPc w, by simp [exec, execRet, hp], rfl⟩
  · exact .inr ⟨_, if_pos hs, by simp [exec, execRet, hp]⟩

theorem execOutcome_jp (nnn : Addr12) (s : State) : ExecOutcome (.jp nnn) s :=
  .inl ⟨rfl, s.setPc (zextAddr nnn), by simp [exec, execJp], rfl⟩

theorem execOutcome_call (nnn : Addr12) (s : State) : ExecOutcome (.call nnn) s := by
  rcases s.push_cases s.pc with ⟨hs, hp⟩ | ⟨hs, hp⟩
  · exact .inl ⟨if_neg (Nat.not_le_of_lt hs), (s.setStack (s.stack ++ [s.pc])).setPc (zextAddr nnn),
      by simp [exec, execCall, hp], rfl⟩
  · exact .inr ⟨_, if_pos hs, by simp [exec, execCall, hp]⟩

theorem execOutcome_jpV0 (nnn : Addr12) (s : State) : ExecOutcome (.jpV0 nnn) s := by
  rcases checkTarget_cases (s.offsetTarget nnn) with ⟨ht, hc⟩ | ⟨ht, hc⟩
  · exact .inr ⟨_, if_pos ht, by simp only [exec, execJpV0, hc]; rfl⟩
  · refine .inl ⟨if_neg (Nat.not_le_of_lt ht), _, by rw [exec, execJpV0, hc], ?_⟩
    rfl

theorem execOutcome_drw (x y n : Nibble) (s : State) : ExecOutcome (.drw x y n) s := by
  have hn : n ≠ 0#4 ↔ n.toNat ≠ 0 := BitVec.toNat_ne_iff_ne.symm
  rcases s.memRead_cases s.iAddr n.toNat with ⟨h0, hm, hr⟩ | ⟨hm, hr⟩
  · exact .inr ⟨_, if_pos ⟨hn.mpr h0, hm⟩, by simp only [exec, execDrw, hr]; rfl⟩
  · refine .inl ⟨if_neg fun h => hm ⟨hn.mp h.1, h.2⟩, _, by rw [exec, execDrw, hr], ?_⟩
    rfl

theorem execOutcome_ldB (x : Nibble) (s : State) : ExecOutcome (.ldB x) s := by
  rcases s.memWrite_cases s.iAddr (bcdDigits (s.reg x)) with ⟨-, hm, hw⟩ | ⟨hm, hw⟩
  · exact .inr ⟨_, if_pos hm, by simp only [exec, execLdB, hw]; rfl⟩
  · refine .inl ⟨if_neg fun h => hm ⟨Nat.succ_ne_zero 2, h⟩, _, by rw [exec, execLdB, hw], ?_⟩
    rfl

theorem execOutcome_ldStore (x : Nibble) (s : State) : ExecOutcome (.ldStore x) s := by
  rcases s.memWrite_cases s.iAddr (s.regBlock x) with ⟨-, hm, hw⟩ | ⟨hm, hw⟩ <;>
    rw [State.regBlock_length] at hm
  · exact .inr ⟨_, if_pos hm, by simp only [exec, execLdStore, hw, State.regBlock_length]; rfl⟩
  · refine .inl ⟨if_neg fun h => hm ⟨Nat.succ_ne_zero _, h⟩, _, by rw [exec, execLdStore, hw], ?_⟩
    rfl

theorem execOutcome_ldLoad (x : Nibble) (s : State) : ExecOutcome (.ldLoad x) s := by
  rcases s.memRead_cases s.iAddr (blockLength x) with ⟨-, hm, hr⟩ | ⟨hm, hr⟩
  · exact .inr ⟨_, if_pos hm, by simp only [exec, execLdLoad, hr]; rfl⟩
  · refine .inl ⟨if_neg fun h => hm ⟨Nat.succ_ne_zero _, h⟩, _, by rw [exec, execLdLoad, hr], ?_⟩
    simp

/-- Every instruction completes or fails as tabled (R104, R220): seven can fail, the jump's check never does, and the
others are one or two writes outside the `loopState`. -/
theorem exec_outcome (i : Instr) (s : State) : ExecOutcome i s := by
  cases i with
  | ret => exact execOutcome_ret s
  | jp nnn => exact execOutcome_jp nnn s
  | call nnn => exact execOutcome_call nnn s
  | jpV0 nnn => exact execOutcome_jpV0 nnn s
  | drw x y n => exact execOutcome_drw x y n s
  | ldB x => exact execOutcome_ldB x s
  | ldStore x => exact execOutcome_ldStore x s
  | ldLoad x => exact execOutcome_ldLoad x s
  | orReg | andReg | xorReg => exact .inl ⟨rfl, _, rfl, State.loopState_setLogic _ _ _⟩
  | seImm | sneImm | seReg | sneReg | skp | sknp => exact .inl ⟨rfl, _, rfl, State.loopState_skip _ _⟩
  | ldVxK => exact .inl ⟨rfl, _, rfl, State.loopState_keyWaitWith _ _ _⟩
  | cls | sys | ldImm | addImm | ldReg | addReg | sub | shr | subn | shl | ldI | rnd | ldVxDt | ldDtVx | ldStVx
  | addI | ldF => exact .inl ⟨rfl, _, rfl, rfl⟩

/-! What a cycle can do -/

/-- A cycle counts its slot and leaves the rest of the `loopState`, but for the one failure it may raise (R106, R222,
R224). -/
theorem State.cycle_outcome (s : State) : ∃ t, s.cycle = .next t ∧
    (t.loopState = s.countSlot.loopState ∨
      ∃ f pc0 w, t.loopState = (s.countSlot.raise f pc0 w).loopState) := by
  rcases s.cycle_cases with ⟨-, hc⟩ | ⟨-, e, -, hc⟩ | ⟨-, i, -, hc⟩
  · exact ⟨_, hc, .inr ⟨_, _, _, rfl⟩⟩
  · exact ⟨_, hc, .inr ⟨_, _, _, rfl⟩⟩
  · rw [hc]
    rcases exec_outcome i s.atExecute with ⟨-, t, ht, hl⟩ | ⟨f, -, ht⟩
    · exact ⟨t, ht, .inl hl⟩
    · exact ⟨_, ht, .inr ⟨f, _, _, rfl⟩⟩

/-- Whatever its outcome, a cycle counts one slot, stays in the batch and writes neither snapshot nor output. -/
theorem State.cycle_frame (s : State) : ∃ t, s.cycle = .next t ∧ t.slot = s.slot + 1 ∧ t.loop = s.loop ∧
    t.kbdMask = s.kbdMask ∧ t.presents = s.presents := by
  obtain ⟨t, ht, hl | ⟨f, pc0, w, hl⟩⟩ := s.cycle_outcome <;>
    exact ⟨t, ht, congrArg LoopState.slot hl, congrArg LoopState.loop hl, congrArg LoopState.kbdMask hl,
      congrArg LoopState.presents hl⟩

/-- With a decodable word at `PC` the cycle is its execution (R100, R104). -/
theorem State.cycle_of_decodes {s : State} {i : Instr} (hpc : s.pc.toNat + 1 < memSize)
    (hd : decodeWord s.wordAtPc = .ok i) : s.cycle = exec i s.atExecute := by
  rcases s.cycle_cases with ⟨h, -⟩ | ⟨-, e, he, -⟩ | ⟨-, j, hj, hc⟩
  · omega
  · exact absurd (hd.symm.trans he) nofun
  · cases hd.symm.trans hj
    exact hc

/-- Which failures halt (R223, R224). -/
theorem Failure.halts_iff (b : Bool) (f : Failure) :
    f.halts b = true ↔ f.cls = .fatal ∨ (f.cls = .instructionLevel ∧ b = true) := by
  cases f <;> simp [Failure.halts, Failure.cls]

/-- A cycle of a Running engine that ends Halted recorded a failure that halts (R108). -/
theorem State.cycle_halted {s t : State} (hr : s.run = .running) (hc : s.cycle = .next t) (ht : t.run = .halted) :
    ∃ r, t.faults = s.faults ++ [r] ∧ r.failure.halts s.params.haltOnFault = true := by
  obtain ⟨t', hc', hl⟩ := s.cycle_outcome
  cases hc.symm.trans hc'
  rcases hl with hl | ⟨f, pc0, w, hl⟩
  · have hrun : t.run = s.run := congrArg LoopState.run hl
    exact absurd (hr.symm.trans (hrun.symm.trans ht)) nofun
  · refine ⟨_, congrArg LoopState.faults hl, ?_⟩
    have hrun : t.run = if f.halts s.params.haltOnFault then .halted else s.run := congrArg LoopState.run hl
    by_contra hh
    rw [if_neg hh, hr, ht] at hrun
    cases hrun

end Sys2Proof.Machine
end

section
/-! The event a step takes from each place of the frame (R107), and the statements about the cycle and the frame
(spec/40_cycle.md). -/

namespace Sys2Proof.Machine

variable {s : State}

/-! One equation of `step` per place -/

theorem step_of_halted (hr : s.run = .halted) : step s = .fault .halted := by
  simp [step, State.nextEvent, hr]

theorem step_at_snapshot (hr : s.run = .running) (hl : s.loop = .snapshot) : step s = .next s.takeSnapshot := by
  simp [step, State.nextEvent, hr, hl]

theorem step_at_tick (hr : s.run = .running) (hl : s.loop = .batch) (hs : s.params.instrPerFrame ≤ s.slot) :
    step s = .next s.tickTimers := by
  simp [step, State.nextEvent, hr, hl, Nat.not_lt_of_le hs]

theorem step_at_present (hr : s.run = .running) (hl : s.loop = .present) : step s = .next s.presentFrame := by
  simp [step, State.nextEvent, hr, hl]

theorem step_at_close (hr : s.run = .running) (hl : s.loop = .close) : step s = .next s.checkClose := by
  simp [step, State.nextEvent, hr, hl]

theorem step_at_ended (hr : s.run = .running) (hl : s.loop = .ended) : step s = .fault .runEnded := by
  simp [step, State.nextEvent, hr, hl]

/-- An event that ends Halted is a cycle: the other four keep `run` (R107, R108). -/
theorem cycle_of_step_halted {t : State} (h : step s = .next t) (ht : t.run = .halted) : s.cycle = .next t := by
  obtain ⟨hr, hev⟩ := step_cases h
  have hkept : t.run ≠ s.run := by
    rw [hr, ht]
    exact nofun
  rcases hev with ⟨-, rfl⟩ | ⟨-, -, hc⟩ | ⟨-, -, rfl⟩ | ⟨-, rfl⟩ | ⟨-, rfl⟩
  · exact absurd rfl hkept
  · exact hc
  · exact absurd rfl hkept
  · exact absurd rfl hkept
  · exact absurd rfl hkept

/-- The two bytes of an instruction decode to what their word decodes to, with no byte left over (R50, R70). -/
theorem decode_pair_iff (hi lo : Byte) (i : Instr) :
    decode [hi, lo] = .ok (i, []) ↔ decodeWord (wordOfBytes hi lo) = .ok i := by
  rw [decode]
  cases decodeWord (wordOfBytes hi lo) <;> simp [Except.map]

/-! The obligations -/

/-- Settles O9: a cycle answers a next state for every outcome, and in each the slot is one more. -/
theorem everyCycleCountsOneSlot : Obligations.EveryCycleCountsOneSlot := by
  unfold Obligations.EveryCycleCountsOneSlot
  rintro s ⟨hr, hl, hs⟩
  obtain ⟨t, ht, hslot, hloop, -, -⟩ := s.cycle_frame
  exact ⟨t, (step_inBatch ⟨hr, hl, hs⟩).trans ht, hslot, hloop.trans hl⟩

/-- Settles O10: only a cycle can end Halted, and only by the failure it records. -/
theorem haltedHasNoStepUntilReset : Obligations.HaltedHasNoStepUntilReset := by
  unfold Obligations.HaltedHasNoStepUntilReset
  refine ⟨fun s hr => step_of_halted hr, fun s t h => ?_, fun s => rfl⟩
  obtain ⟨hr, -⟩ := step_cases h
  refine ⟨hr, fun ht => ?_⟩
  obtain ⟨r, hlog, hhalts⟩ := State.cycle_halted hr (cycle_of_step_halted h ht) ht
  exact ⟨r, hlog, (Failure.halts_iff _ _).mp hhalts⟩

/-- Settles O11: the five events, each from its place, by the equation of `step` there. -/
theorem frameEventsRunInOrder : Obligations.FrameEventsRunInOrder := by
  unfold Obligations.FrameEventsRunInOrder
  intro s
  refine ⟨step_of_halted, fun hr => ⟨fun hl => ?snapshot, fun hl hs => ?cycle, fun hl hs => ?tick,
    step_at_present hr, fun hl => ?close⟩⟩
  case snapshot => exact ⟨_, step_at_snapshot hr hl, rfl, rfl, rfl, rfl⟩
  case cycle =>
    have hstep : step s = s.cycle := step_inBatch ⟨hr, hl, hs⟩
    obtain ⟨t, ht, -, hloop, hkbd, hpresents⟩ := s.cycle_frame
    exact ⟨hstep, t, hstep.trans ht, hloop.trans hl, hkbd, hpresents⟩
  case tick => exact ⟨_, step_at_tick hr hl hs, satDec_toNat s.dt, satDec_toNat s.st, rfl⟩
  case close => exact ⟨_, step_at_close hr hl, rfl, rfl⟩

/-- Settles O7: the bytes at `PC` decode as their word, so the cycle is the execution of their instruction. -/
theorem stepRunsDecodedInstruction : Obligations.StepRunsDecodedInstruction := by
  unfold Obligations.StepRunsDecodedInstruction
  intro s i h hpc hd
  exact (step_inBatch h).trans (State.cycle_of_decodes hpc ((decode_pair_iff _ _ i).mp hd))

/-- Settles O13: presentation and the close check are the events of their places, and `ended` has none. -/
theorem closeRequestEndsTheRun : Obligations.CloseRequestEndsTheRun := by
  unfold Obligations.CloseRequestEndsTheRun
  intro s hr
  exact ⟨step_at_present hr, step_at_close hr, step_at_ended hr⟩

end Sys2Proof.Machine
end

section
/-! How the decoder meets a row of the opcode table: a masked comparison fixes the fields that the dispatch reads
(spec/30_encoding.md R74, R77). -/

namespace Sys2Proof.Machine

theorem decodeWord_of_direct {w : Word} {i : Instr} (h : decodeDirect w = some i) : decodeWord w = .ok i := by
  rw [decodeWord, h]

theorem decodeWord_of_direct_none {w : Word} (h : decodeDirect w = none) :
    decodeWord w = .error (.unknownOpcode w) := by
  rw [decodeWord, h]

/-- A row with operands below the first nibble: the dispatch is asked about one `op` only. -/
theorem decodesAs_F000 {p : Word} {instr : Word → Instr} (hp : p &&& 0x0FFF#16 = 0)
    (h : ∀ w, opField w = opField p → decodeDirect w = some (instr w)) : DecodesAs 0xF000#16 p instr :=
  fun w hw => decodeWord_of_direct (h w ((masked_F000 w p hp).mp hw))

/-- A row with operands `x` and `y`: the dispatch is asked about one `op` and one `n`. -/
theorem decodesAs_F00F {p : Word} {instr : Word → Instr} (hp : p &&& 0x0FF0#16 = 0)
    (h : ∀ w, opField w = opField p → nField w = nField p → decodeDirect w = some (instr w)) :
    DecodesAs 0xF00F#16 p instr := fun w hw =>
  have ⟨ho, hn⟩ := (masked_F00F w p hp).mp hw
  decodeWord_of_direct (h w ho hn)

/-- A row without operands is one word. -/
theorem decodesAs_FFFF {p : Word} {instr : Word → Instr} (h : decodeDirect p = some (instr p)) :
    DecodesAs 0xFFFF#16 p instr := by
  intro w hw
  obtain rfl := (masked_FFFF w p).mp hw
  exact decodeWord_of_direct h

/-! The rows of the control flow instructions -/

theorem decodesAs_ret : DecodesAs 0xFFFF#16 0x00EE#16 (fun _ => .ret) := decodesAs_FFFF rfl

theorem decodesAs_jp : DecodesAs 0xF000#16 0x1000#16 (fun w => .jp (nnnField w)) :=
  decodesAs_F000 rfl fun w ho => by rw [decodeDirect, ho]; rfl

theorem decodesAs_call : DecodesAs 0xF000#16 0x2000#16 (fun w => .call (nnnField w)) :=
  decodesAs_F000 rfl fun w ho => by rw [decodeDirect, ho]; rfl

theorem decodesAs_jpV0 : DecodesAs 0xF000#16 0xB000#16 (fun w => .jpV0 (nnnField w)) :=
  decodesAs_F000 rfl fun w ho => by rw [decodeDirect, ho]; rfl

theorem decodesAs_seImm : DecodesAs 0xF000#16 0x3000#16 (fun w => .seImm (xField w) (kkField w)) :=
  decodesAs_F000 rfl fun w ho => by rw [decodeDirect, ho]; rfl

theorem decodesAs_sneImm : DecodesAs 0xF000#16 0x4000#16 (fun w => .sneImm (xField w) (kkField w)) :=
  decodesAs_F000 rfl fun w ho => by rw [decodeDirect, ho]; rfl

theorem decodesAs_seReg : DecodesAs 0xF00F#16 0x5000#16 (fun w => .seReg (xField w) (yField w)) :=
  decodesAs_F00F rfl fun w ho hn => by rw [decodeDirect, ho]; exact if_pos hn

theorem decodesAs_sneReg : DecodesAs 0xF00F#16 0x9000#16 (fun w => .sneReg (xField w) (yField w)) :=
  decodesAs_F00F rfl fun w ho hn => by rw [decodeDirect, ho]; exact if_pos hn

/-- The register skips have no row for a nonzero low nibble (R80, R129, R130). -/
theorem decodeDirect_registerSkip_none {w : Word} (ho : opField w = 0x5#4 ∨ opField w = 0x9#4)
    (hn : nField w ≠ 0#4) : decodeDirect w = none := by
  rcases ho with ho | ho
  · rw [decodeDirect, ho]; exact if_neg hn
  · rw [decodeDirect, ho]; exact if_neg hn

end Sys2Proof.Machine
end

section
/-! What the control flow instructions do, one equation per case, and the statements about them
(spec/41_control_flow.md). -/

namespace Sys2Proof.Machine

variable {s : State}

/-! What a write of `PC` leaves unchanged -/

theorem State.onlyPc_setPc (s : State) (w : Word) : s.onlyPc (s.setPc w) := ⟨s.byte_setPc w, rfl⟩

theorem State.onlyPc_skip (s : State) (c : Bool) : s.onlyPc (s.skip c) := by
  rw [State.skip_eq]
  exact s.onlyPc_setPc _

theorem toNat_zextAddr (nnn : Addr12) : (zextAddr nnn).toNat = nnn.toNat :=
  BitVec.toNat_setWidth_of_le (by decide)

/-! Instructions that fail, and the cases of those that complete -/

/-- On a condition of R220 the instruction leaves the record of that failure and nothing else (R222). -/
theorem exec_of_failsWith {i : Instr} {f : Failure} (h : i.failsWith s = some f) :
    exec i s = .next (s.logged f (encode i) (f.halts s.params.haltOnFault)) := by
  rcases exec_outcome i s with ⟨hnone, -⟩ | ⟨g, hg, he⟩
  · exact absurd (hnone.symm.trans h) nofun
  · cases hg.symm.trans h
    rw [he, State.fail_eq_logged]

theorem exec_ret_of_concat {rest : List Word} {w : Word} (h : s.stack = rest ++ [w]) :
    exec .ret s = .next ((s.setStack rest).setPc w) := by
  have hpop : s.pop = .ok (w, s.setStack rest) := by simp [State.pop, h]
  rw [exec, execRet, hpop]

theorem exec_jp (nnn : Addr12) (s : State) : exec (.jp nnn) s = .next (s.setPc (zextAddr nnn)) := by
  rw [exec, execJp, checkTarget_addr12]

theorem exec_call_of_lt (nnn : Addr12) (h : s.stack.length < stackCap) :
    exec (.call nnn) s = .next ((s.setStack (s.stack ++ [s.pc])).setPc (zextAddr nnn)) := by
  rcases s.push_cases s.pc with ⟨-, hpush⟩ | ⟨hfull, -⟩
  · rw [exec, execCall, checkTarget_addr12]
    simp only [hpush]
  · exact absurd h (Nat.not_lt_of_le hfull)

theorem exec_jpV0_of_lt {nnn : Addr12} (h : s.offsetTarget nnn < memSize) :
    exec (.jpV0 nnn) s = .next (s.setPc (BitVec.ofNat 16 (s.offsetTarget nnn))) := by
  rcases checkTarget_cases (s.offsetTarget nnn) with ⟨hout, -⟩ | ⟨-, hok⟩
  · exact absurd h (Nat.not_lt_of_le hout)
  · rw [exec, execJpV0, hok]

/-- An instruction that is a skip on a condition completes with `PC` 2 further exactly when it holds (R121). -/
theorem exec_skips {i : Instr} {c : Bool} {P : Prop} [Decidable P] (h : exec i s = .next (s.skip c))
    (hc : c = true ↔ P) :
    ∃ t, exec i s = .next t ∧ t.pc = (if P then s.pc + 2 else s.pc) ∧ s.onlyPc t :=
  ⟨s.skip c, h, (s.skip_pc c).trans (if_congr hc rfl rfl), s.onlyPc_skip c⟩

/-! The obligations -/

/-- Settles O17: the pop answers the last entry with the stack before it; the empty stack is RET's one failure. -/
theorem retPopsIntoPc : Obligations.RetPopsIntoPc := by
  unfold Obligations.RetPopsIntoPc
  refine ⟨decodesAs_ret, fun s w rest h => ?pop, fun s h => ?underflow⟩
  case pop => exact ⟨_, exec_ret_of_concat h, rfl, fun _ => rfl⟩
  case underflow => exact exec_of_failsWith (if_pos h)

/-- Settles O18: a 12-bit target passes the check, so JP is the write of `PC`. -/
theorem jumpWritesPc : Obligations.JumpWritesPc := by
  unfold Obligations.JumpWritesPc
  exact ⟨decodesAs_jp, fun nnn s => ⟨_, exec_jp nnn s, toNat_zextAddr nnn, s.onlyPc_setPc _⟩⟩

/-- Settles O19: below capacity the push appends `PC`; the full stack is CALL's one failure. -/
theorem callPushesAndJumps : Obligations.CallPushesAndJumps := by
  unfold Obligations.CallPushesAndJumps
  refine ⟨decodesAs_call, fun nnn s h => ?push, fun nnn s h => ?overflow⟩
  case push => exact ⟨_, exec_call_of_lt nnn h, rfl, toNat_zextAddr nnn, fun _ => rfl, rfl⟩
  case overflow => exact exec_of_failsWith (if_pos h)

/-- Settles O20: a sum inside memory fits a word, so `PC` holds it unwrapped; any other sum is JP V0's one failure. -/
theorem jumpOffsetAddsV0 : Obligations.JumpOffsetAddsV0 := by
  unfold Obligations.JumpOffsetAddsV0
  refine ⟨decodesAs_jpV0, fun nnn s h => ?inside, fun nnn s h => ?outside⟩
  case inside =>
    have hfits : s.offsetTarget nnn < 2 ^ 16 := Nat.lt_trans h (by decide)
    exact ⟨_, exec_jpV0_of_lt h, (BitVec.toNat_ofNat _ _).trans (Nat.mod_eq_of_lt hfits), s.onlyPc_setPc _⟩
  case outside => exact exec_of_failsWith (if_pos h)

/-- Settles O21: both are skips on the comparison of `Vx` with `kk`. -/
theorem immediateSkipsCompare : Obligations.ImmediateSkipsCompare := by
  unfold Obligations.ImmediateSkipsCompare
  exact ⟨decodesAs_seImm, decodesAs_sneImm, fun x kk s => ⟨exec_skips rfl beq_iff_eq, exec_skips rfl bne_iff_ne⟩⟩

/-- Settles O22: both are skips on the comparison of `Vx` with `Vy`; the dispatch has no arm for another low nibble. -/
theorem registerSkipsCompare : Obligations.RegisterSkipsCompare := by
  unfold Obligations.RegisterSkipsCompare
  exact ⟨decodesAs_seReg, decodesAs_sneReg,
    fun w ho hn => decodeWord_of_direct_none (decodeDirect_registerSkip_none ho hn),
    fun x y s => ⟨exec_skips rfl beq_iff_eq, exec_skips rfl bne_iff_ne⟩⟩

end Sys2Proof.Machine
end

section
/-! The rows of the ALU instructions in the opcode table (spec/30_encoding.md R74, R77). -/

namespace Sys2Proof.Machine

/-- A row of the `0x8` arm: that arm is asked about one `n`. -/
theorem decodesAs_group8 {p : Word} {instr : Word → Instr} (hp : p &&& 0x0FF0#16 = 0) (hop : opField p = 0x8#4)
    (h : ∀ w, nField w = nField p → decodeGroup8 w = some (instr w)) : DecodesAs 0xF00F#16 p instr :=
  decodesAs_F00F hp fun w ho hn => by rw [decodeDirect, ho, hop]; exact h w hn

theorem decodesAs_ldImm : DecodesAs 0xF000#16 0x6000#16 (fun w => .ldImm (xField w) (kkField w)) :=
  decodesAs_F000 rfl fun w ho => by rw [decodeDirect, ho]; rfl

theorem decodesAs_addImm : DecodesAs 0xF000#16 0x7000#16 (fun w => .addImm (xField w) (kkField w)) :=
  decodesAs_F000 rfl fun w ho => by rw [decodeDirect, ho]; rfl

theorem decodesAs_rnd : DecodesAs 0xF000#16 0xC000#16 (fun w => .rnd (xField w) (kkField w)) :=
  decodesAs_F000 rfl fun w ho => by rw [decodeDirect, ho]; rfl

theorem decodesAs_ldReg : DecodesAs 0xF00F#16 0x8000#16 (fun w => .ldReg (xField w) (yField w)) :=
  decodesAs_group8 rfl rfl fun w hn => by rw [decodeGroup8, hn]; rfl

theorem decodesAs_orReg : DecodesAs 0xF00F#16 0x8001#16 (fun w => .orReg (xField w) (yField w)) :=
  decodesAs_group8 rfl rfl fun w hn => by rw [decodeGroup8, hn]; rfl

theorem decodesAs_andReg : DecodesAs 0xF00F#16 0x8002#16 (fun w => .andReg (xField w) (yField w)) :=
  decodesAs_group8 rfl rfl fun w hn => by rw [decodeGroup8, hn]; rfl

theorem decodesAs_xorReg : DecodesAs 0xF00F#16 0x8003#16 (fun w => .xorReg (xField w) (yField w)) :=
  decodesAs_group8 rfl rfl fun w hn => by rw [decodeGroup8, hn]; rfl

theorem decodesAs_addReg : DecodesAs 0xF00F#16 0x8004#16 (fun w => .addReg (xField w) (yField w)) :=
  decodesAs_group8 rfl rfl fun w hn => by rw [decodeGroup8, hn]; rfl

theorem decodesAs_sub : DecodesAs 0xF00F#16 0x8005#16 (fun w => .sub (xField w) (yField w)) :=
  decodesAs_group8 rfl rfl fun w hn => by rw [decodeGroup8, hn]; rfl

theorem decodesAs_shr : DecodesAs 0xF00F#16 0x8006#16 (fun w => .shr (xField w) (yField w)) :=
  decodesAs_group8 rfl rfl fun w hn => by rw [decodeGroup8, hn]; rfl

theorem decodesAs_subn : DecodesAs 0xF00F#16 0x8007#16 (fun w => .subn (xField w) (yField w)) :=
  decodesAs_group8 rfl rfl fun w hn => by rw [decodeGroup8, hn]; rfl

theorem decodesAs_shl : DecodesAs 0xF00F#16 0x800E#16 (fun w => .shl (xField w) (yField w)) :=
  decodesAs_group8 rfl rfl fun w hn => by rw [decodeGroup8, hn]; rfl

end Sys2Proof.Machine
end

section
/-! What register writes with and without a flag leave unchanged, the arithmetic of the results and flags as numbers,
and the statements about the ALU instructions (spec/42_alu.md). Each of them is one register write: `setReg`,
`setWithFlag` or `setLogic`. -/

namespace Sys2Proof.Machine

/-! What a register write leaves unchanged -/

theorem State.onlyRegs_setReg (s : State) (x : Nibble) (b : Byte) : s.onlyRegs (s.setReg x b) [x] :=
  ⟨fun _ hr => s.reg_setReg_ne b (List.ne_of_not_mem_cons hr), s.byte_setReg x b, rfl⟩

/-- The frames of two writes in a row: what neither writes is unchanged. -/
theorem State.onlyRegs.trans {s t u : State} {l m : List Nibble} (hst : s.onlyRegs t l) (htu : t.onlyRegs u m) :
    s.onlyRegs u (l ++ m) := by
  obtain ⟨hregs, hmem, ht⟩ := hst
  obtain ⟨hregs', hmem', hu⟩ := htu
  refine ⟨fun r hr => ?_, fun a => (hmem' a).trans (hmem a), ?_⟩
  · obtain ⟨hl, hm⟩ := not_or.mp (mt List.mem_append.mpr hr)
    exact (hregs' r hm).trans (hregs r hl)
  · rw [hu, ht]

/-- The result, then VF: nothing else is written (R12). -/
theorem State.onlyRegs_setWithFlag (s : State) (x : Nibble) (r flag : Byte) :
    s.onlyRegs (s.setWithFlag x r flag) [x, vf] :=
  (s.onlyRegs_setReg x r).trans (State.onlyRegs_setReg _ vf flag)

theorem State.onlyRegs_setLogic (s : State) (x : Nibble) (r : Byte) : s.onlyRegs (s.setLogic x r) [x, vf] := by
  rw [State.setLogic]
  split <;> exact (s.onlyRegs_setReg x r).trans (State.onlyRegs_setReg _ vf _)

/-! What a write with a flag leaves in the two registers -/

/-- VF is written last, so the flag wins when x = 15 (R12, R21). -/
@[simp] theorem State.reg_setWithFlag_vf (s : State) (x : Nibble) (r flag : Byte) :
    (s.setWithFlag x r flag).reg vf = flag := by
  rw [State.reg_setWithFlag, if_pos rfl]

theorem State.reg_setWithFlag_dest (s : State) {x : Nibble} (hx : x ≠ vf) (r flag : Byte) :
    (s.setWithFlag x r flag).reg x = r := by
  rw [State.reg_setWithFlag, if_neg hx, if_pos rfl]

/-! Results and flags as numbers -/

theorem flagByte_decide (P : Prop) [Decidable P] : flagByte (decide P) = if P then 1 else 0 :=
  if_congr decide_eq_true_iff rfl rfl

/-- The difference modulo 256, as the non-negative remainder (R149, R150). -/
theorem toNat_byte_sub (a b : Byte) : ((a - b).toNat : Int) = ((a.toNat : Int) - b.toNat) % 256 := by
  have ha := a.isLt
  have hb := b.isLt
  rw [BitVec.toNat_sub]
  omega

/-- The bit a right shift moves out is the remainder by 2 (R151). -/
theorem toNat_shrFlag (b : Byte) : (shrFlag b).toNat = b.toNat % 2 :=
  (BitVec.toNat_and b 1).trans (Nat.and_one_is_mod _)

/-- The bit a left shift moves out is the quotient by 128 (R152). -/
theorem toNat_shlFlag (b : Byte) : (shlFlag b).toNat = b.toNat / 128 :=
  (BitVec.toNat_ushiftRight b 7).trans (Nat.shiftRight_eq_div_pow _ 7)

/-! The obligations -/

/-- Settles O24: the instruction is one register write. -/
theorem loadImmediateWritesVx : Obligations.LoadImmediateWritesVx := by
  unfold Obligations.LoadImmediateWritesVx
  exact ⟨decodesAs_ldImm, fun x kk s => ⟨_, rfl, s.reg_setReg_self x kk, s.onlyRegs_setReg x kk⟩⟩

/-- Settles O25: the write is of the sum of bytes, and no flag is among the registers it names. -/
theorem addImmediateWrapsWithoutFlag : Obligations.AddImmediateWrapsWithoutFlag := by
  unfold Obligations.AddImmediateWrapsWithoutFlag
  refine ⟨decodesAs_addImm, fun x kk s => ⟨_, rfl, ?sum, s.onlyRegs_setReg x _⟩⟩
  case sum => rw [State.reg_setReg_self, BitVec.toNat_add]

/-- Settles O26: the write is of the old `Vy`, for x = y too. -/
theorem loadRegisterCopiesVy : Obligations.LoadRegisterCopiesVy := by
  unfold Obligations.LoadRegisterCopiesVy
  exact ⟨decodesAs_ldReg, fun x y s => ⟨_, rfl, s.reg_setReg_self x _, s.onlyRegs_setReg x _⟩⟩

/-- Settles O27: all three are `setLogic` of their result, whose flag depends on x = 15 alone. -/
theorem logicStoresResultThenFlag : Obligations.LogicStoresResultThenFlag := by
  unfold Obligations.LogicStoresResultThenFlag
  refine ⟨decodesAs_orReg, decodesAs_andReg, decodesAs_xorReg, fun x y s i r h => ?_⟩
  have hexec : exec i s = .next (s.setLogic x r) := by
    rcases h with ⟨rfl, rfl⟩ | ⟨rfl, rfl⟩ | ⟨rfl, rfl⟩ <;> rfl
  refine ⟨_, hexec, fun hx => ⟨?result, ?zero⟩, fun hx => ?shifted, s.onlyRegs_setLogic x r⟩
  case result => rw [State.reg_setLogic, if_neg hx, if_pos rfl]
  case zero => rw [State.reg_setLogic, if_pos rfl, if_neg hx]
  case shifted => rw [State.reg_setLogic, if_pos rfl, if_pos hx]

/-- Settles O28: the sum of bytes, then the carry of the widened sum. -/
theorem addRegisterSetsCarry : Obligations.AddRegisterSetsCarry := by
  unfold Obligations.AddRegisterSetsCarry
  refine ⟨decodesAs_addReg, fun x y s => ⟨_, rfl, fun hx => ?sum, ?carry, s.onlyRegs_setWithFlag x _ _⟩⟩
  case sum => rw [State.reg_setWithFlag_dest _ hx, BitVec.toNat_add]
  case carry => rw [State.reg_setWithFlag_vf, carryFlag, flagByte_decide]

/-- Settles O29: the difference of bytes with `Vx` the minuend, then the comparison of the old operands. -/
theorem subSetsNotBorrow : Obligations.SubSetsNotBorrow := by
  unfold Obligations.SubSetsNotBorrow
  refine ⟨decodesAs_sub, fun x y s => ⟨_, rfl, fun hx => ?difference, ?notBorrow, s.onlyRegs_setWithFlag x _ _⟩⟩
  case difference => rw [State.reg_setWithFlag_dest _ hx, toNat_byte_sub]
  case notBorrow => rw [State.reg_setWithFlag_vf, notBorrowFlag, flagByte_decide]

/-- Settles O30: as SUB, with `Vy` the minuend. -/
theorem subnReversesTheOperands : Obligations.SubnReversesTheOperands := by
  unfold Obligations.SubnReversesTheOperands
  refine ⟨decodesAs_subn, fun x y s =>
    ⟨_, rfl, fun hx => ?difference, ?notBorrow, s.onlyRegs_setWithFlag x _ _⟩⟩
  case difference => rw [State.reg_setWithFlag_dest _ hx, toNat_byte_sub]
  case notBorrow => rw [State.reg_setWithFlag_vf, notBorrowFlag, flagByte_decide]

/-- Settles O31: the shift is the quotient by 2 of the old `Vy`, the flag its remainder. -/
theorem shrShiftsVy : Obligations.ShrShiftsVy := by
  unfold Obligations.ShrShiftsVy
  refine ⟨decodesAs_shr, fun x y s => ⟨_, rfl, fun hx => ?shifted, ?flag, s.onlyRegs_setWithFlag x _ _⟩⟩
  case shifted => rw [State.reg_setWithFlag_dest _ hx, BitVec.toNat_ushiftRight, Nat.shiftRight_one]
  case flag => rw [State.reg_setWithFlag_vf, toNat_shrFlag]

/-- Settles O32: the shift doubles the old `Vy` modulo 256, the flag is the bit that leaves. -/
theorem shlShiftsVy : Obligations.ShlShiftsVy := by
  unfold Obligations.ShlShiftsVy
  refine ⟨decodesAs_shl, fun x y s => ⟨_, rfl, fun hx => ?shifted, ?flag, s.onlyRegs_setWithFlag x _ _⟩⟩
  case shifted => rw [State.reg_setWithFlag_dest _ hx, BitVec.toNat_shiftLeft, Nat.shiftLeft_eq, pow_one]
  case flag => rw [State.reg_setWithFlag_vf, toNat_shlFlag]

/-- Settles O33: the write follows the draw, which changes the counter of draws alone. -/
theorem rndMasksOneDraw : Obligations.RndMasksOneDraw := by
  unfold Obligations.RndMasksOneDraw
  refine ⟨decodesAs_rnd, fun x kk s => ?_⟩
  have hreg : (rndWith s.drawRandom.1 x kk s.drawRandom.2).reg x = Config.randomByte s.rndDraws &&& kk :=
    State.reg_setReg_self _ x _
  obtain ⟨hregs, hmem, -⟩ := State.onlyRegs_setReg s.drawRandom.2 x (s.drawRandom.1 &&& kk)
  refine ⟨_, rfl, hreg, fun hkk => ?zero, hregs, hmem, rfl⟩
  case zero => rw [hreg, hkk]; exact BitVec.and_zero

end Sys2Proof.Machine
end

section
/-! The rows of the index and memory instructions in the opcode table (spec/30_encoding.md R74, R77). -/

namespace Sys2Proof.Machine

/-- A row with operand `x` alone: the dispatch is asked about one `op` and one `kk`. -/
theorem decodesAs_F0FF {p : Word} {instr : Word → Instr} (hp : p &&& 0x0F00#16 = 0)
    (h : ∀ w, opField w = opField p → kkField w = kkField p → decodeDirect w = some (instr w)) :
    DecodesAs 0xF0FF#16 p instr := fun w hw =>
  have ⟨ho, hk⟩ := (masked_F0FF w p hp).mp hw
  decodeWord_of_direct (h w ho hk)

/-- A row of the `0xF` arm: that arm is asked about one `kk`. -/
theorem decodesAs_groupF {p : Word} {instr : Word → Instr} (hp : p &&& 0x0F00#16 = 0) (hop : opField p = 0xF#4)
    (h : ∀ w, kkField w = kkField p → decodeGroupF w = some (instr w)) : DecodesAs 0xF0FF#16 p instr :=
  decodesAs_F0FF hp fun w ho hk => by rw [decodeDirect, ho, hop]; exact h w hk

theorem decodesAs_ldI : DecodesAs 0xF000#16 0xA000#16 (fun w => .ldI (nnnField w)) :=
  decodesAs_F000 rfl fun w ho => by rw [decodeDirect, ho]; rfl

theorem decodesAs_addI : DecodesAs 0xF0FF#16 0xF01E#16 (fun w => .addI (xField w)) :=
  decodesAs_groupF rfl rfl fun w hk => by rw [decodeGroupF, hk]; rfl

theorem decodesAs_ldF : DecodesAs 0xF0FF#16 0xF029#16 (fun w => .ldF (xField w)) :=
  decodesAs_groupF rfl rfl fun w hk => by rw [decodeGroupF, hk]; rfl

theorem decodesAs_ldB : DecodesAs 0xF0FF#16 0xF033#16 (fun w => .ldB (xField w)) :=
  decodesAs_groupF rfl rfl fun w hk => by rw [decodeGroupF, hk]; rfl

theorem decodesAs_ldStore : DecodesAs 0xF0FF#16 0xF055#16 (fun w => .ldStore (xField w)) :=
  decodesAs_groupF rfl rfl fun w hk => by rw [decodeGroupF, hk]; rfl

theorem decodesAs_ldLoad : DecodesAs 0xF0FF#16 0xF065#16 (fun w => .ldLoad (xField w)) :=
  decodesAs_groupF rfl rfl fun w hk => by rw [decodeGroupF, hk]; rfl

end Sys2Proof.Machine
end

section
/-! Memory transfers inside the address space, the arithmetic of I, and the statements about the index and memory
instructions (spec/43_index_memory.md). -/

namespace Sys2Proof.Machine

variable {s : State}

/-! Transfers that stay inside memory -/

theorem State.memWrite_of_le {a : Nat} {bs : List Byte} (h : a + bs.length ≤ memSize) :
    s.memWrite a bs = .ok (s.setMem (Memory.writeList s.params s.mem a bs)) := by
  rcases s.memWrite_cases a bs with ⟨h0, hout, -⟩ | ⟨-, hok⟩
  · omega
  · exact hok

theorem State.memRead_of_le {a n : Nat} (h : a + n ≤ memSize) : s.memRead a n = .ok (s.bytesAt a n) := by
  rcases s.memRead_cases a n with ⟨h0, hout, -⟩ | ⟨-, hok⟩
  · omega
  · exact hok

/-- Byte `j` of the bytes written is read back at `a + j` (R56). -/
theorem State.byte_writeList_add (s : State) (a : Nat) (bs : List Byte) {j : Nat} (hj : j < bs.length) :
    (s.setMem (Memory.writeList s.params s.mem a bs)).byte (a + j) = bs[j] := by
  rw [State.byte_writeList, dif_pos ⟨Nat.le_add_right a j, Nat.add_lt_add_left hj a⟩]
  simp only [Nat.add_sub_cancel_left]

theorem State.keepsMemoryOutside_writeList (s : State) (a : Nat) (bs : List Byte) :
    s.keepsMemoryOutside (s.setMem (Memory.writeList s.params s.mem a bs)) a bs.length := by
  intro b hb
  rw [State.byte_writeList, dif_neg (by omega)]

/-! The memory instructions that complete -/

theorem exec_ldB_of_lt (x : Nibble) (h : s.iAddr + 2 < memSize) :
    exec (.ldB x) s = .next (s.setMem (Memory.writeList s.params s.mem s.iAddr (bcdDigits (s.reg x)))) := by
  rw [exec, execLdB, State.memWrite_of_le h]

theorem exec_ldStore_of_lt {x : Nibble} (h : s.iAddr + x.toNat < memSize) :
    exec (.ldStore x) s =
      .next ((s.setMem (Memory.writeList s.params s.mem s.iAddr (s.regBlock x))).setI (s.iPlus (blockLength x))) := by
  have hin : s.iAddr + (s.regBlock x).length ≤ memSize := by rw [State.regBlock_length]; exact h
  rw [exec, execLdStore, State.memWrite_of_le hin]

theorem exec_ldLoad_of_lt {x : Nibble} (h : s.iAddr + x.toNat < memSize) :
    exec (.ldLoad x) s =
      .next ((s.setRegs 0 (s.bytesAt s.iAddr (blockLength x))).setI (s.iPlus (blockLength x))) := by
  have hin : s.iAddr + blockLength x ≤ memSize := h
  rw [exec, execLdLoad, State.memRead_of_le hin]

/-! What a block load leaves in the registers (R175) -/

theorem State.reg_setRegs_bytesAt (s : State) (a : Nat) (x k : Nibble) :
    (s.setRegs 0 (s.bytesAt a (blockLength x))).reg k =
      if k.toNat ≤ x.toNat then s.byte (a + k.toNat) else s.reg k := by
  have hfits : 0 + (s.bytesAt a (blockLength x)).length ≤ 16 := by
    rw [State.bytesAt_length, Nat.zero_add]; exact x.isLt
  have hloaded : (0 ≤ k.toNat ∧ k.toNat < 0 + (s.bytesAt a (blockLength x)).length) ↔ k.toNat ≤ x.toNat := by
    rw [State.bytesAt_length, blockLength]; omega
  rw [State.reg_setRegs _ _ _ hfits]
  by_cases hk : k.toNat ≤ x.toNat
  · rw [dif_pos (hloaded.mpr hk), if_pos hk, State.bytesAt_getElem, Nat.sub_zero]
  · rw [dif_neg (mt hloaded.mp hk), if_neg hk]

/-! Registers, digits and addresses as numbers -/

/-- `Vk` is byte `k` of the block stored (R174). -/
theorem State.regBlock_getElem_toNat (s : State) (x k : Nibble) (hk : k.toNat < (s.regBlock x).length) :
    (s.regBlock x)[k.toNat] = s.reg k := by
  rw [State.regBlock_getElem, BitVec.ofNat_toNat, BitVec.setWidth_eq]

/-- A block that ends inside memory leaves I past it without a wrap (R174, R175). -/
theorem State.toNat_iPlus_blockLength {x : Nibble} (h : s.iReg.toNat + x.toNat < memSize) :
    (s.iPlus (blockLength x)).toNat = s.iReg.toNat + x.toNat + 1 := by
  have hfits : s.iReg.toNat + (x.toNat + 1) < 2 ^ 16 := Nat.lt_of_le_of_lt h (by decide)
  rw [State.iPlus, BitVec.toNat_ofNat, blockLength, Nat.mod_eq_of_lt hfits, Nat.add_assoc]

/-- The glyph address fits a word at every FONT_BASE that R6 allows (R172). -/
theorem State.toNat_glyphAddr (s : State) (x : Nibble) :
    (s.glyphAddr x).toNat = s.params.fontBase.val + (s.reg x).toNat % 16 * 5 := by
  have hbase := s.params.fontBase.isLt
  have hnibble : (s.reg x &&& 0x0F#8).toNat = (s.reg x).toNat % 16 :=
    (BitVec.toNat_and _ _).trans (Nat.and_two_pow_sub_one_eq_mod _ 4)
  rw [State.glyphAddr, hnibble, BitVec.toNat_ofNat, glyphBytes, Nat.mod_eq_of_lt (by omega)]

/-- A number below 256 is its own byte. -/
theorem toNat_byte_ofNat {d : Nat} (h : d < 256) : (BitVec.ofNat 8 d).toNat = d :=
  (BitVec.toNat_ofNat d 8).trans (Nat.mod_eq_of_lt h)

/-! The obligations -/

/-- Settles O37: the three digits fit a byte each and are read back where they were written; an access that leaves
memory is LD B's one failure. -/
theorem bcdStoresThreeDigits : Obligations.BcdStoresThreeDigits := by
  unfold Obligations.BcdStoresThreeDigits
  refine ⟨decodesAs_ldB, fun x s h => ?inside, fun x s h => exec_of_failsWith (if_pos h)⟩
  case inside =>
    have hbyte := (s.reg x).isLt
    have hread (j : Nat) (hj : j < 3) := s.byte_writeList_add s.iAddr (bcdDigits (s.reg x)) hj
    refine ⟨_, exec_ldB_of_lt x h, ?hundreds, ?tens, ?ones,
      s.keepsMemoryOutside_writeList s.iAddr (bcdDigits (s.reg x)), rfl⟩
    case hundreds => exact (congrArg BitVec.toNat (hread 0 (by decide))).trans (toNat_byte_ofNat (by omega))
    case tens => exact (congrArg BitVec.toNat (hread 1 (by decide))).trans (toNat_byte_ofNat (by omega))
    case ones => exact (congrArg BitVec.toNat (hread 2 (by decide))).trans (toNat_byte_ofNat (by omega))

/-- Settles O38: the bytes written are V0..Vx in order; a block that leaves memory is the one failure. -/
theorem blockStoreWritesRegisters : Obligations.BlockStoreWritesRegisters := by
  unfold Obligations.BlockStoreWritesRegisters
  refine ⟨decodesAs_ldStore, fun x s h => ?inside, fun x s h => exec_of_failsWith (if_pos h)⟩
  case inside =>
    have hlen := s.regBlock_length x
    refine ⟨_, exec_ldStore_of_lt h, fun k hk => ?stored, ?outside, State.toNat_iPlus_blockLength h, rfl⟩
    case stored =>
      have hk' : k.toNat < (s.regBlock x).length := hlen ▸ Nat.lt_succ_of_le hk
      rw [State.byte_setI, State.byte_writeList_add s s.iAddr _ hk', State.regBlock_getElem_toNat]
    case outside =>
      rw [← hlen]
      exact s.keepsMemoryOutside_writeList s.iAddr (s.regBlock x)

/-- Settles O39: V0..Vx are the bytes read, in order; a block that leaves memory is the one failure. -/
theorem blockLoadReadsRegisters : Obligations.BlockLoadReadsRegisters := by
  unfold Obligations.BlockLoadReadsRegisters
  refine ⟨decodesAs_ldLoad, fun x s h => ?inside, fun x s h => exec_of_failsWith (if_pos h)⟩
  case inside =>
    have hreg := s.reg_setRegs_bytesAt s.iAddr x
    refine ⟨_, exec_ldLoad_of_lt h, fun k hk => (hreg k).trans (if_pos hk),
      fun k hk => (hreg k).trans (if_neg (Nat.not_le_of_lt hk)), s.byte_setRegs 0 _,
      State.toNat_iPlus_blockLength h, ?frame⟩
    case frame => rw [s.setRegs_eq 0]; rfl

/-- Settles O34: the instruction is the write of I. -/
theorem loadIndexWritesI : Obligations.LoadIndexWritesI := by
  unfold Obligations.LoadIndexWritesI
  exact ⟨decodesAs_ldI, fun nnn s => ⟨_, rfl, toNat_zextAddr nnn, s.byte_setI _, rfl⟩⟩

/-- Settles O35: the write is of the sum of words, `Vx` zero-extended. -/
theorem addIndexWraps : Obligations.AddIndexWraps := by
  unfold Obligations.AddIndexWraps
  refine ⟨decodesAs_addI, fun x s => ⟨_, rfl, ?sum, s.byte_setI _, rfl⟩⟩
  case sum => rw [State.setI_iReg, BitVec.toNat_add, BitVec.toNat_setWidth_of_le (by decide)]

/-- Settles O36: the write is of the glyph address, whose low nibble is at most 15. -/
theorem loadFontSelectsGlyph : Obligations.LoadFontSelectsGlyph := by
  unfold Obligations.LoadFontSelectsGlyph
  refine ⟨decodesAs_ldF, fun x s => ⟨_, rfl, s.toNat_glyphAddr x, ?bound, s.byte_setI _, rfl⟩⟩
  case bound => rw [State.setI_iReg, State.toNat_glyphAddr]; omega

end Sys2Proof.Machine
end

section
/-! The rows of the display, keyboard and timer instructions in the opcode table (spec/30_encoding.md R74, R77). -/

namespace Sys2Proof.Machine

/-- A row of the `0xE` arm: that arm is asked about one `kk`. -/
theorem decodesAs_groupE {p : Word} {instr : Word → Instr} (hp : p &&& 0x0F00#16 = 0) (hop : opField p = 0xE#4)
    (h : ∀ w, kkField w = kkField p → decodeGroupE w = some (instr w)) : DecodesAs 0xF0FF#16 p instr :=
  decodesAs_F0FF hp fun w ho hk => by rw [decodeDirect, ho, hop]; exact h w hk

theorem decodesAs_cls : DecodesAs 0xFFFF#16 0x00E0#16 (fun _ => .cls) := decodesAs_FFFF rfl

theorem decodesAs_drw : DecodesAs 0xF000#16 0xD000#16 (fun w => .drw (xField w) (yField w) (nField w)) :=
  decodesAs_F000 rfl fun w ho => by rw [decodeDirect, ho]; rfl

theorem decodesAs_skp : DecodesAs 0xF0FF#16 0xE09E#16 (fun w => .skp (xField w)) :=
  decodesAs_groupE rfl rfl fun w hk => by rw [decodeGroupE, hk]; rfl

theorem decodesAs_sknp : DecodesAs 0xF0FF#16 0xE0A1#16 (fun w => .sknp (xField w)) :=
  decodesAs_groupE rfl rfl fun w hk => by rw [decodeGroupE, hk]; rfl

theorem decodesAs_ldVxDt : DecodesAs 0xF0FF#16 0xF007#16 (fun w => .ldVxDt (xField w)) :=
  decodesAs_groupF rfl rfl fun w hk => by rw [decodeGroupF, hk]; rfl

theorem decodesAs_ldVxK : DecodesAs 0xF0FF#16 0xF00A#16 (fun w => .ldVxK (xField w)) :=
  decodesAs_groupF rfl rfl fun w hk => by rw [decodeGroupF, hk]; rfl

theorem decodesAs_ldDtVx : DecodesAs 0xF0FF#16 0xF015#16 (fun w => .ldDtVx (xField w)) :=
  decodesAs_groupF rfl rfl fun w hk => by rw [decodeGroupF, hk]; rfl

theorem decodesAs_ldStVx : DecodesAs 0xF0FF#16 0xF018#16 (fun w => .ldStVx (xField w)) :=
  decodesAs_groupF rfl rfl fun w hk => by rw [decodeGroupF, hk]; rfl

end Sys2Proof.Machine
end

section
/-! What a blit of the sprite at I does to the state's grid, the key test as arithmetic on the snapshot, what a key wait
leaves unchanged, and the statements about the display, keyboard and timer instructions
(spec/44_display_input_timers.md). -/

namespace Sys2Proof.Machine

variable {s : State}

/-! The sprite of DRW: `n` bytes from I on (R191) -/

/-- A read of no byte never fails, wherever it starts; any other read is one that ends inside memory (R55). -/
theorem State.memRead_of_inside {a n : Nat} (h : n = 0 ∨ a + n - 1 < memSize) :
    s.memRead a n = .ok (s.bytesAt a n) := by
  rcases s.memRead_cases a n with ⟨h0, hout, -⟩ | ⟨-, hok⟩
  · omega
  · exact hok

/-- The set bits of the bytes read are those of `spriteBit`, the closed form of Safety. -/
theorem State.spriteAt_bytesAt (s : State) (x0 y0 n px py : Nat) :
    Grid.spriteAt x0 y0 (s.bytesAt s.iAddr n) px py = s.spriteBit x0 y0 n px py := by
  rw [Grid.spriteAt, State.spriteBit, State.bytesAt_length]
  by_cases hin : x0 ≤ px ∧ px < x0 + 8 ∧ y0 ≤ py ∧ py < y0 + n
  · have hrow : py - y0 < (s.bytesAt s.iAddr n).length := by rw [State.bytesAt_length]; omega
    rw [List.getD_eq_getElem _ _ hrow, State.bytesAt_getElem]
    simp [hin, State.iAddr]
  · simp only [← Bool.decide_and, and_assoc, decide_eq_false hin, Bool.false_and]

/-- The blit of DRW: the sprite of `n` bytes at I, drawn at the anchor (R191). -/
def State.blitAt (s : State) (x0 y0 n : Nat) : Grid × Bool := Grid.blit s.display x0 y0 (s.bytesAt s.iAddr n)

theorem State.pixel_blitAt (s : State) (x0 y0 n : Nat) {px py : Nat} (hx : px < 64) (hy : py < 32) :
    Grid.pixel (s.blitAt x0 y0 n).1 px py = (s.pixel px py ^^ s.spriteBit x0 y0 n px py) := by
  rw [State.blitAt, Grid.blit, Grid.pixel_drawRows _ _ _ _ hx hy, State.spriteAt_bytesAt, State.pixel]

theorem State.blitAt_hit_iff (s : State) (x0 y0 n : Nat) :
    (s.blitAt x0 y0 n).2 = true ↔ s.collides x0 y0 n := by
  simp only [State.blitAt, Grid.blit, Grid.hit_drawRows, State.spriteAt_bytesAt, State.collides, State.pixel,
    Bool.false_eq_true, false_or]

/-- A sprite inside memory is drawn, and VF is its collision (R191). -/
theorem exec_drw_of_inside (x y : Nibble) {n : Nibble} (h : n.toNat = 0 ∨ s.iAddr + n.toNat - 1 < memSize) :
    exec (.drw x y n) s =
      .next ((s.setDisplay (s.blitAt (s.anchorX x) (s.anchorY y) n.toNat).1).setReg vf
        (flagByte (s.blitAt (s.anchorX x) (s.anchorY y) n.toNat).2)) := by
  rw [exec, execDrw, State.memRead_of_inside h]
  rfl

/-! Keyboard -/

/-- The key test, as arithmetic on the snapshot (R192). -/
theorem State.keyPressed_iff (s : State) (b : Byte) :
    s.keyPressed b = true ↔ b.toNat < 16 ∧ s.kbdMask.toNat / 2 ^ b.toNat % 2 = 1 := by
  rw [State.keyPressed, Bool.and_eq_true, decide_eq_true_iff, BitVec.getLsbD, Nat.testBit_eq_decide_div_mod_eq,
    decide_eq_true_iff]

/-- Whatever the answer, a key wait writes `Vx` and `PC` at most (R197). -/
theorem keyWaitWith_frame (k : Option Nibble) (x : Nibble) (s : State) :
    s.keepsRegs (keyWaitWith k x s) [x] ∧ s.keepsMemory (keyWaitWith k x s) ∧
      keyWaitWith k x s = { s with v := (keyWaitWith k x s).v, pc := (keyWaitWith k x s).pc } := by
  cases k with
  | none => exact ⟨fun _ _ => rfl, s.byte_setPc _, rfl⟩
  | some key =>
    obtain ⟨hregs, hmem, -⟩ := s.onlyRegs_setReg x (key.setWidth 8)
    exact ⟨hregs, hmem, rfl⟩

/-! The obligations -/

/-- Settles O42: the range check passes exactly on the first premise; then every pixel is XORed with its sprite bit and
VF is the collision of the whole blit. Otherwise it is DRW's one failure. -/
theorem drawXorsSpriteAndFlagsCollision : Obligations.DrawXorsSpriteAndFlagsCollision := by
  unfold Obligations.DrawXorsSpriteAndFlagsCollision
  refine ⟨decodesAs_drw, fun x y n s h => ?drawn, fun x y n s h0 hout => exec_of_failsWith (if_pos ⟨h0, hout⟩)⟩
  case drawn =>
    have hinside : n.toNat = 0 ∨ s.iAddr + n.toNat - 1 < memSize := h.imp_left (congrArg BitVec.toNat)
    have hhit := s.blitAt_hit_iff (s.anchorX x) (s.anchorY y) n.toNat
    refine ⟨_, exec_drw_of_inside x y hinside, fun px py hx hy => s.pixel_blitAt _ _ _ hx hy, fun hc => ?hit,
      fun hc => ?noHit, fun r hr => ?regs, fun a => rfl, rfl⟩
    case hit => rw [State.reg_setReg_self, hhit.mpr hc]; rfl
    case noHit => rw [State.reg_setReg_self, Bool.eq_false_of_not_eq_true (mt hhit.mp hc)]; rfl
    case regs => rw [State.reg_setReg_ne _ _ (List.ne_of_not_mem_cons hr), State.reg_setDisplay]

/-- Settles O41: the new display is the cleared grid, and the display is all that is written. -/
theorem clsUnsetsEveryPixel : Obligations.ClsUnsetsEveryPixel := by
  unfold Obligations.ClsUnsetsEveryPixel
  exact ⟨decodesAs_cls, fun s => ⟨_, rfl, fun px py _ _ => Grid.pixel_clear px py,
    fun r _ => s.reg_setDisplay _ r, s.byte_setDisplay _, rfl⟩⟩

/-- Settles O43: both are skips, SKP on the key test and SKNP on its negation. -/
theorem keySkipsTestTheSnapshot : Obligations.KeySkipsTestTheSnapshot := by
  unfold Obligations.KeySkipsTestTheSnapshot
  refine ⟨decodesAs_skp, decodesAs_sknp, fun x s => ?skips⟩
  have hkey := s.keyPressed_iff (s.reg x)
  refine ⟨?pressed, ?notPressed⟩
  case pressed =>
    obtain ⟨t, ht, hpc, honly⟩ := exec_skips (i := .skp x) rfl hkey
    exact ⟨t, ht, honly, hpc⟩
  case notPressed =>
    have hnot := (Bool.not_eq_true' _).to_iff.trans (Bool.eq_false_iff.trans (not_congr hkey))
    obtain ⟨t, ht, hpc, honly⟩ := exec_skips (i := .sknp x) rfl hnot
    exact ⟨t, ht, honly, hpc.trans (ite_not _ _ _)⟩

/-- Settles O44: the one query changes the counter of queries alone; what follows it is the key wait for its answer. -/
theorem keyWaitRewindsOrStores : Obligations.KeyWaitRewindsOrStores := by
  unfold Obligations.KeyWaitRewindsOrStores
  refine ⟨decodesAs_ldVxK, fun x s => rfl, fun x s => ?query, fun x s => rfl,
    fun k x s => ⟨s.reg_setReg_self x _, s.onlyRegs_setReg x _⟩⟩
  case query =>
    obtain ⟨hregs, hmem, hframe⟩ := keyWaitWith_frame s.drawKeyRelease.1 x s.drawKeyRelease.2
    refine ⟨_, rfl, ?queries, hregs, hmem, ?frame⟩
    case queries => rw [hframe]; rfl
    case frame => rw [hframe]; rfl

/-- Settles O45: each move is one write, of the timer into `Vx` or of `Vx` into the timer. -/
theorem timerMovesCopy : Obligations.TimerMovesCopy := by
  unfold Obligations.TimerMovesCopy
  exact ⟨decodesAs_ldVxDt, decodesAs_ldDtVx, decodesAs_ldStVx, fun x s =>
    ⟨⟨_, rfl, s.reg_setReg_self x _, s.onlyRegs_setReg x _⟩, ⟨_, rfl, rfl, s.byte_setDt _, rfl⟩,
      ⟨_, rfl, rfl, s.byte_setSt _, rfl⟩⟩⟩

end Sys2Proof.Machine
end

section
/-! The encoder gives back the word that was decoded: a word is the form of its own fields wherever the pattern holds
what the dispatch tested (spec/30_encoding.md R71, R74, R77, R90). -/

namespace Sys2Proof

/-! Words from their coarser fields -/

theorem toNat_op_nnn (w : Word) : w.toNat = (opField w).toNat * 4096 + (nnnField w).toNat := by
  rw [toNat_fields, toNat_nnnField]
  simp only [Nat.add_assoc]

theorem toNat_op_x_kk (w : Word) :
    w.toNat = (opField w).toNat * 4096 + (xField w).toNat * 256 + (kkField w).toNat := by
  rw [toNat_fields, toNat_kkField]
  simp only [Nat.add_assoc]

theorem word_ext_nnn {a b : Word} (ho : opField a = opField b) (hnnn : nnnField a = nnnField b) : a = b :=
  BitVec.eq_of_toNat_eq (by rw [toNat_op_nnn a, toNat_op_nnn b, ho, hnnn])

theorem word_ext_xkk {a b : Word} (ho : opField a = opField b) (hx : xField a = xField b)
    (hkk : kkField a = kkField b) : a = b :=
  BitVec.eq_of_toNat_eq (by rw [toNat_op_x_kk a, toNat_op_x_kk b, ho, hx, hkk])

/-! A form with a word's own operands is the word -/

variable {p w : Word}

theorem formA_of_fields (ho : opField w = opField p) (hnnn : nnnField p = 0) : formA p (nnnField w) = w := by
  refine word_ext_nnn ((opField_formA p _).trans ho.symm) ?_
  rw [nnnField_formA, hnnn]
  exact BitVec.zero_or

theorem formXK_of_fields (ho : opField w = opField p) (hx : xField p = 0) (hkk : kkField p = 0) :
    formXK p (xField w) (kkField w) = w := by
  refine word_ext_xkk ((opField_formXK p _ _).trans ho.symm) ?x ?kk
  case x => rw [xField_formXK, hx]; exact BitVec.zero_or
  case kk => rw [kkField_formXK, hkk]; exact BitVec.zero_or

theorem formXYN_of_fields (ho : opField w = opField p) (hx : xField p = 0) (hy : yField p = 0) (hn : nField p = 0) :
    formXYN p (xField w) (yField w) (nField w) = w := by
  refine word_ext ((opField_formXYN p _ _ _).trans ho.symm) ?x ?y ?n
  case x => rw [xField_formXYN, hx]; exact BitVec.zero_or
  case y => rw [yField_formXYN, hy]; exact BitVec.zero_or
  case n => rw [nField_formXYN, hn]; exact BitVec.zero_or

theorem formXY_of_fields (ho : opField w = opField p) (hn : nField w = nField p) (hx : xField p = 0)
    (hy : yField p = 0) : formXY p (xField w) (yField w) = w := by
  refine word_ext ((opField_formXYN p _ _ _).trans ho.symm) ?x ?y ?n
  case x => rw [formXY, xField_formXYN, hx]; exact BitVec.zero_or
  case y => rw [formXY, yField_formXYN, hy]; exact BitVec.zero_or
  case n => rw [formXY, nField_formXYN, hn]; exact BitVec.or_zero

theorem formX_of_fields (ho : opField w = opField p) (hkk : kkField w = kkField p) (hx : xField p = 0) :
    formX p (xField w) = w := by
  refine word_ext_xkk ((opField_formXYN p _ _ _).trans ho.symm) ?x ((kkField_formX p _).trans hkk.symm)
  case x => rw [formX, xField_formXYN, hx]; exact BitVec.zero_or

/-! The arms of the dispatch -/

theorem encode_decodeGroup0 (ho : opField w = 0x0#4) : encode (decodeGroup0 w) = w := by
  rw [decodeGroup0]
  split
  · next hcls => exact hcls.symm
  · split
    · next hret => exact hret.symm
    · exact formA_of_fields ho rfl

theorem encode_of_decodeGroup8 {i : Instr} (ho : opField w = 0x8#4) (h : decodeGroup8 w = some i) : encode i = w := by
  simp only [decodeGroup8] at h
  split at h <;> cases h <;> exact formXY_of_fields ho ‹_› rfl rfl

theorem encode_of_decodeGroupE {i : Instr} (ho : opField w = 0xE#4) (h : decodeGroupE w = some i) : encode i = w := by
  simp only [decodeGroupE] at h
  split at h <;> cases h <;> exact formX_of_fields ho ‹_› rfl

theorem encode_of_decodeGroupF {i : Instr} (ho : opField w = 0xF#4) (h : decodeGroupF w = some i) : encode i = w := by
  simp only [decodeGroupF] at h
  split at h <;> cases h <;> exact formX_of_fields ho ‹_› rfl

/-- What is left to the last arm of the dispatch (R77). -/
theorem nibble_eq_F_or (o : Nibble) : o = 0xF#4 ∨ o ∈ [0x0#4, 0x1#4, 0x2#4, 0x3#4, 0x4#4, 0x5#4, 0x6#4, 0x7#4, 0x8#4,
    0x9#4, 0xA#4, 0xB#4, 0xC#4, 0xD#4, 0xE#4] := by
  revert o
  decide

/-- Each arm fixes the fields that its instruction's pattern holds, and the operands are the word's own. -/
theorem encode_of_decodeDirect {i : Instr} (h : decodeDirect w = some i) : encode i = w := by
  simp only [decodeDirect] at h
  split at h
  case h_1 ho => cases h; exact encode_decodeGroup0 ho
  case h_9 ho => exact encode_of_decodeGroup8 ho h
  case h_15 ho => exact encode_of_decodeGroupE ho h
  case h_16 =>
    have hF : opField w = 0xF#4 := by
      refine (nibble_eq_F_or _).resolve_right ?_
      simp only [List.mem_cons, List.not_mem_nil, or_false, not_or]
      and_intros <;> assumption
    exact encode_of_decodeGroupF hF h
  case h_2 ho | h_3 ho | h_11 ho | h_12 ho => cases h; exact formA_of_fields ho rfl
  case h_4 ho | h_5 ho | h_7 ho | h_8 ho | h_13 ho => cases h; exact formXK_of_fields ho rfl rfl
  case h_14 ho => cases h; exact formXYN_of_fields ho rfl rfl rfl
  case h_6 ho | h_10 ho =>
    split at h
    · next hn => cases h; exact formXY_of_fields ho hn rfl rfl
    · cases h

/-- The record of a failing instruction, which holds the word encoded from it, names the fetched word (R221; log
entry 8). -/
theorem encode_of_decodeWord {i : Instr} (h : decodeWord w = .ok i) : encode i = w := by
  rw [decodeWord] at h
  split at h
  · next hd => cases h; exact encode_of_decodeDirect hd
  · cases h

end Sys2Proof
end

section
/-! The timer tick, failing cycles and the registers an instruction writes: the statements about failures and timers
(spec/60_exceptions.md). -/

namespace Sys2Proof.Machine

variable {s t : State}

/-! What a failure leaves at the end of its cycle -/

theorem Failure.halts_of_instructionLevel {f : Failure} (h : f.cls = .instructionLevel) (b : Bool) :
    f.halts b = b := by
  rw [Failure.halts, h]

theorem Failure.halts_of_fatal {f : Failure} (h : f.cls = .fatal) (b : Bool) : f.halts b = true := by
  rw [Failure.halts, h]

/-- A failure raised after the advance is the closed form of Safety: it writes the log and `run` alone (R222). -/
theorem State.raise_atExecute (hr : s.run = .running) (f : Failure) :
    s.atExecute.raise f s.pc (some s.wordAtPc) = s.cycleFailed f (f.halts s.params.haltOnFault) := by
  rw [State.cycleFailed, ← hr]
  rfl

/-- Inside the instruction `PC - 2` is the address it was fetched from, and its encoding is the fetched word (R25). -/
theorem State.fail_atExecute {i : Instr} (hr : s.run = .running) (hd : decodeWord s.wordAtPc = .ok i) (f : Failure) :
    s.atExecute.fail i f = s.cycleFailed f (f.halts s.params.haltOnFault) := by
  have hpc0 : s.atExecute.pc - 2 = s.pc := BitVec.add_sub_cancel s.pc 2
  rw [State.fail, hpc0, encode_of_decodeWord hd, State.raise_atExecute hr]

/-! One equation of `step` per way a cycle fails -/

theorem step_fetchFails (h : s.inBatch) (hpc : memSize ≤ s.pc.toNat + 1) :
    step s = .next (s.countSlot.raise .fetchOutOfRange s.pc none) := by
  rw [step_inBatch h]
  rcases s.cycle_cases with ⟨-, hc⟩ | ⟨hin, -⟩ | ⟨hin, -⟩
  · exact hc
  · exact absurd hin (Nat.not_lt_of_le hpc)
  · exact absurd hin (Nat.not_lt_of_le hpc)

theorem step_decodeFails {e : DecodeError} (h : s.inBatch) (hpc : s.pc.toNat + 1 < memSize)
    (hd : decodeWord s.wordAtPc = .error e) :
    step s = .next (s.cycleFailed .unknownOpcode s.params.haltOnFault) := by
  have ⟨hr, _, _⟩ := h
  rw [step_inBatch h]
  rcases s.cycle_cases with ⟨hout, -⟩ | ⟨-, -, -, hc⟩ | ⟨-, i, hi, -⟩
  · exact absurd hpc (Nat.not_lt_of_le hout)
  · exact hc.trans (congrArg _ (State.raise_atExecute hr .unknownOpcode))
  · exact absurd (hd.symm.trans hi) nofun

theorem step_instructionFails {i : Instr} {f : Failure} (h : s.inBatch) (hpc : s.pc.toNat + 1 < memSize)
    (hd : decodeWord s.wordAtPc = .ok i) (hf : i.failsWith s.atExecute = some f) :
    step s = .next (s.cycleFailed f (f.halts s.params.haltOnFault)) := by
  have ⟨hr, _, _⟩ := h
  rw [step_inBatch h, State.cycle_of_decodes hpc hd, exec_of_failsWith hf, ← State.fail_eq_logged,
    State.fail_atExecute hr hd]

/-! The registers an instruction writes -/

theorem State.onlyRegs.keepsRegs {l : List Nibble} (h : s.onlyRegs t l) : s.keepsRegs t l := by
  obtain ⟨hregs, -, -⟩ := h
  exact hregs

theorem State.keepsRegs_skip (s : State) (c : Bool) (l : List Nibble) : s.keepsRegs (s.skip c) l :=
  fun r _ => State.reg_congr (s.skip_v c) r

/-- The block load writes V0..Vx (R175). -/
theorem State.keepsRegs_setRegs_bytesAt (s : State) (a : Nat) (x : Nibble) :
    s.keepsRegs (s.setRegs 0 (s.bytesAt a (blockLength x))) (Instr.ldLoad x).written := by
  intro r hr
  rw [State.reg_setRegs_bytesAt]
  refine if_neg fun hle => hr (List.mem_map.mpr ⟨r.toNat, List.mem_range.mpr (Nat.lt_succ_of_le hle), ?_⟩)
  rw [BitVec.ofNat_toNat, BitVec.setWidth_eq]

/-- Every instruction writes at most the registers it names (R20, R21): those that can fail by the two cases of their
condition, the others by the register write that they are, if they are one. -/
theorem exec_keepsRegs (i : Instr) (s : State) : ∃ t, exec i s = .next t ∧ s.keepsRegs t i.written := by
  cases i with
  | ret =>
    rcases s.pop_cases with ⟨w, rest, hs, -⟩ | ⟨hs, -⟩
    · exact ⟨_, exec_ret_of_concat hs, fun _ _ => rfl⟩
    · exact ⟨_, exec_of_failsWith (if_pos hs), fun _ _ => rfl⟩
  | call nnn =>
    rcases Nat.lt_or_ge s.stack.length stackCap with hs | hs
    · exact ⟨_, exec_call_of_lt nnn hs, fun _ _ => rfl⟩
    · exact ⟨_, exec_of_failsWith (if_pos hs), fun _ _ => rfl⟩
  | jpV0 nnn =>
    rcases Nat.lt_or_ge (s.offsetTarget nnn) memSize with ht | ht
    · exact ⟨_, exec_jpV0_of_lt ht, fun _ _ => rfl⟩
    · exact ⟨_, exec_of_failsWith (if_pos ht), fun _ _ => rfl⟩
  | drw x y n =>
    by_cases hin : n.toNat = 0 ∨ s.iAddr + n.toNat - 1 < memSize
    · exact ⟨_, exec_drw_of_inside x y hin, (State.onlyRegs_setReg _ vf _).keepsRegs⟩
    · obtain ⟨h0, hout⟩ := not_or.mp hin
      exact ⟨_, exec_of_failsWith (if_pos ⟨mt (congrArg BitVec.toNat) h0, Nat.le_of_not_lt hout⟩), fun _ _ => rfl⟩
  | ldB x =>
    rcases Nat.lt_or_ge (s.iAddr + 2) memSize with ha | ha
    · exact ⟨_, exec_ldB_of_lt x ha, fun _ _ => rfl⟩
    · exact ⟨_, exec_of_failsWith (if_pos ha), fun _ _ => rfl⟩
  | ldStore x =>
    rcases Nat.lt_or_ge (s.iAddr + x.toNat) memSize with ha | ha
    · exact ⟨_, exec_ldStore_of_lt ha, fun _ _ => rfl⟩
    · exact ⟨_, exec_of_failsWith (if_pos ha), fun _ _ => rfl⟩
  | ldLoad x =>
    rcases Nat.lt_or_ge (s.iAddr + x.toNat) memSize with ha | ha
    · exact ⟨_, exec_ldLoad_of_lt ha, s.keepsRegs_setRegs_bytesAt _ x⟩
    · exact ⟨_, exec_of_failsWith (if_pos ha), fun _ _ => rfl⟩
  | jp nnn => exact ⟨_, exec_jp nnn s, fun _ _ => rfl⟩
  | ldVxK x =>
    obtain ⟨hregs, -, -⟩ := keyWaitWith_frame s.drawKeyRelease.1 x s.drawKeyRelease.2
    exact ⟨_, rfl, hregs⟩
  | seImm | sneImm | seReg | sneReg | skp | sknp => exact ⟨_, rfl, s.keepsRegs_skip _ _⟩
  | ldImm | addImm | ldReg | ldVxDt => exact ⟨_, rfl, (s.onlyRegs_setReg _ _).keepsRegs⟩
  | rnd => exact ⟨_, rfl, (s.drawRandom.2.onlyRegs_setReg _ _).keepsRegs⟩
  | orReg | andReg | xorReg => exact ⟨_, rfl, (s.onlyRegs_setLogic _ _).keepsRegs⟩
  | addReg | sub | subn | shr | shl => exact ⟨_, rfl, (s.onlyRegs_setWithFlag _ _ _).keepsRegs⟩
  | cls | sys | ldI | addI | ldF | ldDtVx | ldStVx => exact ⟨_, rfl, fun _ _ => rfl⟩

/-- An instruction that appends a record has failed, so it leaves the register file (R222). -/
theorem exec_v_of_faults_ne {i : Instr} (h : exec i s = .next t) (hlog : t.faults ≠ s.faults) : t.v = s.v := by
  rcases exec_outcome i s with ⟨-, t', ht', hl⟩ | ⟨f, -, ht'⟩
  · cases h.symm.trans ht'
    exact absurd (congrArg LoopState.faults hl) hlog
  · cases h.symm.trans ht'
    rfl

/-! The obligations -/

/-- Settles O46: an unknown word and a failing instruction both leave `cycleFailed`, and an instruction-level failure
halts as HALT_ON_FAULT says. -/
theorem instructionFailureOnlyLogsAndAdvances : Obligations.InstructionFailureOnlyLogsAndAdvances := by
  unfold Obligations.InstructionFailureOnlyLogsAndAdvances
  refine fun s h hpc => ⟨fun e hd => step_decodeFails h hpc hd, fun i f hd hf hcls => ?_⟩
  rw [step_instructionFails h hpc hd hf, Failure.halts_of_instructionLevel hcls]

/-- Settles O47: the failed fetch is raised before the advance, any other fatal failure leaves `cycleFailed`; both
halt by their class. -/
theorem fatalFailureAlwaysHalts : Obligations.FatalFailureAlwaysHalts := by
  unfold Obligations.FatalFailureAlwaysHalts
  refine fun s h => ⟨fun hpc => step_fetchFails h hpc, fun hpc i f hd hf hcls => ?_⟩
  rw [step_instructionFails h hpc hd hf, Failure.halts_of_fatal hcls]

/-- Settles O54: the frame of every instruction, and the register file of one that recorded a failure. -/
theorem registersChangeOnlyAsNamed : Obligations.RegistersChangeOnlyAsNamed := by
  unfold Obligations.RegistersChangeOnlyAsNamed
  intro i s t h
  obtain ⟨t', ht', hregs⟩ := exec_keepsRegs i s
  cases h.symm.trans ht'
  exact ⟨hregs, fun hlog r _ => State.reg_congr (exec_v_of_faults_ne h hlog) r⟩

/-- Settles O12: with the budget spent the event is the tick, which asks ST before it decrements. -/
theorem timerTickSaturatesAndBeeps : Obligations.TimerTickSaturatesAndBeeps := by
  unfold Obligations.TimerTickSaturatesAndBeeps
  intro s hr hl hs
  have hdec (b : Byte) : ((satDec b).toNat : Int) = max ((b.toNat : Int) - 1) 0 := by
    rw [satDec_toNat]
    omega
  exact ⟨_, step_at_tick hr hl hs, hdec s.dt, hdec s.st, fun h => if_neg h, fun h => if_pos h, rfl,
    fun _ _ => rfl, fun _ => rfl, rfl⟩

end Sys2Proof.Machine
end

section
/-! What the font install, Reset and the load each leave in memory and in the registers, and the statements about
them (spec/70_reset_and_hazards.md section 1). -/

namespace Sys2Proof.Machine

/-! The font install (R261) -/

theorem State.byte_installFont_add (s : State) (j : Fin 80) :
    s.installFont.byte (s.params.fontBase.val + j.val) = s.params.fontData[j] := by
  rw [State.byte_installFont, dif_pos ⟨Nat.le_add_right _ _, Nat.add_lt_add_left j.isLt _⟩]
  simp only [Nat.add_sub_cancel_left, Fin.getElem_fin]

theorem State.keepsMemoryOutside_installFont (s : State) :
    s.keepsMemoryOutside s.installFont s.params.fontBase.val 80 := by
  intro b hb
  rw [State.byte_installFont, dif_neg (by omega)]

/-! Reset (R262) -/

theorem State.byte_resetProc_of_lt (s : State) {a : Nat} (ha : a < progStart) : s.resetProc.byte a = s.byte a := by
  rw [State.byte_resetProc, if_pos ha]

theorem State.byte_resetProc_of_le (s : State) {a : Nat} (ha : progStart ≤ a) : s.resetProc.byte a = 0 := by
  rw [State.byte_resetProc, if_neg (Nat.not_lt.mpr ha)]

theorem State.reg_resetProc (s : State) (r : Nibble) : s.resetProc.reg r = 0 :=
  Vector.getElem_replicate _

/-! The load (R263, R264) -/

theorem State.load_of_le (s : State) {image : List Byte} (h : image.length ≤ maxProgram) :
    s.load image = .loaded (s.setMem (Memory.writeList s.params s.mem progStart image)) :=
  if_pos h

theorem State.load_of_lt (s : State) {image : List Byte} (h : maxProgram < image.length) :
    s.load image = .failed { failure := .programTooLarge image.length, pc0 := none, word := none }
      { s with loop := .aborted } :=
  if_neg (Nat.not_le.mpr h)

theorem step_at_aborted {s : State} (hr : s.run = .running) (hl : s.loop = .aborted) :
    step s = .fault .startupAborted := by
  rw [step, State.nextEvent, hr, hl]

/-! The obligations -/

/-- Settles O57: constructed memory reads 0, the font install is a run of writes over FONT_BASE, and Reset leaves what
stands below the program region. -/
theorem constructionThenFontInstall : Obligations.ConstructionThenFontInstall := by
  unfold Obligations.ConstructionThenFontInstall
  refine ⟨?_, fun s => ⟨s.byte_installFont_add, s.keepsMemoryOutside_installFont, rfl,
    fun _ ha => s.byte_resetProc_of_lt ha⟩⟩
  rintro p s rfl
  exact ⟨rfl, State.byte_construct p, State.reg_resetWith p, rfl, rfl, rfl, rfl, rfl, State.pixel_resetWith p,
    rfl, rfl, rfl⟩

/-- Settles O58: Reset unlists the program region, where an unlisted byte reads 0, and keeps every listed byte below
it; its other fields are what the procedure names. -/
theorem resetProcedureWrites : Obligations.ResetProcedureWrites := by
  unfold Obligations.ResetProcedureWrites
  intro s
  have hprogram : ∀ a, 0x200 ≤ a → a < 0x1000 → s.resetProc.byte a = 0 := fun _ ha _ => s.byte_resetProc_of_le ha
  have hlow : ∀ a, a < 0x200 → s.resetProc.byte a = s.byte a := fun _ ha => s.byte_resetProc_of_lt ha
  exact ⟨s.resetProc, rfl, hprogram, hlow, s.reg_resetProc, rfl, rfl, rfl, rfl, rfl, rfl, rfl, rfl, rfl,
    fun _ _ => rfl, rfl, rfl, rfl, rfl, State.wf_resetProc⟩

/-- Settles O59: an image that fits is a run of writes from PROG_START; a longer one changes the place in the loop
alone, where no step follows. -/
theorem loadWritesTheImageOrAborts : Obligations.LoadWritesTheImageOrAborts := by
  unfold Obligations.LoadWritesTheImageOrAborts
  refine fun s image => ⟨fun hfits => ?_, fun hlong => ?_⟩
  · exact ⟨_, s.load_of_le hfits, fun _ hj => s.byte_writeList_add progStart image hj,
      s.keepsMemoryOutside_writeList progStart image, rfl⟩
  · exact ⟨_, _, s.load_of_lt hlong, rfl, rfl, fun _ => rfl, rfl, fun hr => step_at_aborted hr rfl⟩

end Sys2Proof.Machine
end

section
/-! Decode and encode as inverses, the table scan against the dispatch, and the words without an instruction
(spec/30_encoding.md). -/

namespace Sys2Proof

open Machine Laws.RowMatch

variable {p w : Word}

/-! The encoding of an instruction decodes by its row, and the row reads the operands back -/

theorem decodeWord_formA {c : Addr12 → Instr} (hrow : DecodesAs 0xF000#16 p (fun w => c (nnnField w)))
    (hp : p &&& 0x0FFF#16 = 0) (hnnn : nnnField p = 0) (a : Addr12) : decodeWord (formA p a) = .ok (c a) := by
  have ha : nnnField (formA p a) = a := by rw [nnnField_formA, hnnn]; exact BitVec.zero_or
  exact (hrow _ (formA_masked p hp a)).trans (by simp only [ha])

theorem decodeWord_formXK {c : Nibble → Byte → Instr}
    (hrow : DecodesAs 0xF000#16 p (fun w => c (xField w) (kkField w))) (hp : p &&& 0x0FFF#16 = 0)
    (hx : xField p = 0) (hkk : kkField p = 0) (x : Nibble) (kk : Byte) :
    decodeWord (formXK p x kk) = .ok (c x kk) := by
  have hx' : xField (formXK p x kk) = x := by rw [xField_formXK, hx]; exact BitVec.zero_or
  have hkk' : kkField (formXK p x kk) = kk := by rw [kkField_formXK, hkk]; exact BitVec.zero_or
  exact (hrow _ (formXK_masked p hp x kk)).trans (by simp only [hx', hkk'])

theorem decodeWord_formXYN {c : Nibble → Nibble → Nibble → Instr}
    (hrow : DecodesAs 0xF000#16 p (fun w => c (xField w) (yField w) (nField w))) (hp : p &&& 0x0FFF#16 = 0)
    (hx : xField p = 0) (hy : yField p = 0) (hn : nField p = 0) (x y n : Nibble) :
    decodeWord (formXYN p x y n) = .ok (c x y n) := by
  have hx' : xField (formXYN p x y n) = x := by rw [xField_formXYN, hx]; exact BitVec.zero_or
  have hy' : yField (formXYN p x y n) = y := by rw [yField_formXYN, hy]; exact BitVec.zero_or
  have hn' : nField (formXYN p x y n) = n := by rw [nField_formXYN, hn]; exact BitVec.zero_or
  exact (hrow _ (formXYN_masked p hp x y n)).trans (by simp only [hx', hy', hn'])

theorem decodeWord_formXY {c : Nibble → Nibble → Instr}
    (hrow : DecodesAs 0xF00F#16 p (fun w => c (xField w) (yField w))) (hp : p &&& 0x0FF0#16 = 0)
    (hx : xField p = 0) (hy : yField p = 0) (x y : Nibble) : decodeWord (formXY p x y) = .ok (c x y) := by
  have hx' : xField (formXY p x y) = x := by rw [formXY, xField_formXYN, hx]; exact BitVec.zero_or
  have hy' : yField (formXY p x y) = y := by rw [formXY, yField_formXYN, hy]; exact BitVec.zero_or
  exact (hrow _ (formXY_masked p hp x y)).trans (by simp only [hx', hy'])

theorem decodeWord_formX {c : Nibble → Instr} (hrow : DecodesAs 0xF0FF#16 p (fun w => c (xField w)))
    (hp : p &&& 0x0F00#16 = 0) (hx : xField p = 0) (x : Nibble) : decodeWord (formX p x) = .ok (c x) := by
  have hx' : xField (formX p x) = x := by rw [formX, xField_formXYN, hx]; exact BitVec.zero_or
  exact (hrow _ (formX_masked p hp x)).trans (by simp only [hx'])

/-! The row of SYS, which the two literals overlap -/

/-- The words of row 3 that the literals leave to it (R74, R75). -/
theorem decodeWord_sys (hw : w &&& 0xF000#16 = 0x0000#16) (hcls : w ≠ 0x00E0#16) (hret : w ≠ 0x00EE#16) :
    decodeWord w = .ok (.sys (nnnField w)) := by
  have hop : opField w = 0x0#4 := (masked_F000 w 0x0000#16 rfl).mp hw
  have hgroup : decodeGroup0 w = .sys (nnnField w) := by rw [decodeGroup0, if_neg hcls, if_neg hret]
  apply decodeWord_of_direct
  rw [decodeDirect, hop]
  exact congrArg some hgroup

/-- The instructions that R79 excludes are the two readings of the literals as SYS. -/
theorem Instr.eq_sys_literal_of_not_wf {i : Instr} (h : i.wf ≠ true) : i = .sys 0x0E0#12 ∨ i = .sys 0x0EE#12 := by
  cases i with
  | sys nnn =>
    rcases Decidable.em (nnn = 0x0E0#12) with rfl | hcls
    · exact .inl rfl
    · rcases Decidable.em (nnn = 0x0EE#12) with rfl | hret
      · exact .inr rfl
      · exact absurd (by simp [Instr.wf, hcls, hret]) h
  | _ => exact absurd rfl h

theorem decodeWord_encode_sys {nnn : Addr12} (h : (Instr.sys nnn).wf = true) :
    decodeWord (encode (.sys nnn)) = .ok (.sys nnn) := by
  have hnnn : nnnField (formA 0x0000 nnn) = nnn := (nnnField_formA _ nnn).trans BitVec.zero_or
  have hne (lit : Word) (hlit : (nnn != nnnField lit) = true) : formA 0x0000 nnn ≠ lit :=
    fun heq => bne_iff_ne.mp hlit (hnnn.symm.trans (congrArg nnnField heq))
  obtain ⟨hcls, hret⟩ := (Bool.and_eq_true _ _).mp h
  exact (decodeWord_sys (formA_masked 0x0000 rfl nnn) (hne 0x00E0#16 hcls) (hne 0x00EE#16 hret)).trans
    (by simp only [hnnn])

/-! The rows of the table in priority order -/

/-- The encoding of an instruction meets its row, operands or not. -/
theorem rowMatch_encode (i : Instr) : Statement i := by
  cases i with
  | cls | ret => rfl
  | sys | jp | call | ldI | jpV0 => exact formA_masked _ rfl _
  | seImm | sneImm | ldImm | addImm | rnd => exact formXK_masked _ rfl _ _
  | drw => exact formXYN_masked _ rfl _ _ _
  | seReg | ldReg | orReg | andReg | xorReg | addReg | sub | shr | subn | shl | sneReg =>
    exact formXY_masked _ rfl _ _
  | skp | sknp | ldVxDt | ldVxK | ldDtVx | ldStVx | addI | ldF | ldB | ldStore | ldLoad =>
    exact formX_masked _ rfl _

theorem row_mem_opcodeTable (i : Instr) : row i ∈ opcodeTable.map fun r => (r.mask, r.pattern) := by
  cases i <;> exact List.mem_of_elem_eq_true rfl

theorem OpcodeRow.accepts_iff (r : OpcodeRow) (w : Word) : r.accepts w = true ↔ w &&& r.mask = r.pattern :=
  beq_iff_eq

/-- Every word that decodes is met by the row of its instruction. -/
theorem exists_row_of_decodeDirect {i : Instr} (h : decodeDirect w = some i) :
    ∃ r ∈ opcodeTable, r.accepts w = true := by
  obtain ⟨r, hr, hrow⟩ := List.mem_map.mp (row_mem_opcodeTable i)
  refine ⟨r, hr, (r.accepts_iff w).mpr ?_⟩
  have hmatch := rowMatch_encode i
  rw [Statement, encode_of_decodeDirect h, ← hrow] at hmatch
  exact hmatch

/-- Every row decodes the words it matches, but for the two literals on the row of SYS. -/
theorem decodeWord_of_accepts (hcls : w ≠ 0x00E0#16) (hret : w ≠ 0x00EE#16) :
    ∀ r ∈ opcodeTable, w &&& r.mask = r.pattern → decodeWord w = .ok (r.instr w) := by
  simp only [opcodeTable, opcodeRowsA, opcodeRowsB, opcodeRowsC, List.cons_append, List.nil_append,
    List.forall_mem_cons]
  exact ⟨decodesAs_cls w, decodesAs_ret w, fun h => decodeWord_sys h hcls hret, decodesAs_jp w, decodesAs_call w,
    decodesAs_seImm w, decodesAs_sneImm w, decodesAs_seReg w, decodesAs_ldImm w, decodesAs_addImm w,
    decodesAs_ldReg w, decodesAs_orReg w, decodesAs_andReg w, decodesAs_xorReg w, decodesAs_addReg w,
    decodesAs_sub w, decodesAs_shr w, decodesAs_subn w, decodesAs_shl w, decodesAs_sneReg w, decodesAs_ldI w,
    decodesAs_jpV0 w, decodesAs_rnd w, decodesAs_drw w, decodesAs_skp w, decodesAs_sknp w, decodesAs_ldVxDt w,
    decodesAs_ldVxK w, decodesAs_ldDtVx w, decodesAs_ldStVx w, decodesAs_addI w, decodesAs_ldF w, decodesAs_ldB w,
    decodesAs_ldStore w, decodesAs_ldLoad w, nofun⟩

theorem decodeDirect_of_decodeWord {i : Instr} (h : decodeWord w = .ok i) : decodeDirect w = some i := by
  rw [decodeWord] at h
  split at h
  · next hd => cases h; exact hd
  · cases h

/-- Two rows agree on the bits they both fix only when the first is a literal (R75). -/
theorem opcodeTable_pairwise : opcodeTable.Pairwise fun r r' => r.pattern &&& r'.mask = r'.pattern &&& r.mask →
    r.mask = 0xFFFF#16 ∧ (r.pattern = 0x00E0#16 ∨ r.pattern = 0x00EE#16) := by
  decide

/-- A word that two rows match is one of the literals. -/
theorem eq_literal_of_accepts_both {r r' : OpcodeRow} (h : r.accepts w = true) (h' : r'.accepts w = true)
    (hrows : r.pattern &&& r'.mask = r'.pattern &&& r.mask →
      r.mask = 0xFFFF#16 ∧ (r.pattern = 0x00E0#16 ∨ r.pattern = 0x00EE#16)) :
    w = 0x00E0#16 ∨ w = 0x00EE#16 := by
  rw [OpcodeRow.accepts_iff] at h h'
  have hcommon : r.pattern &&& r'.mask = r'.pattern &&& r.mask := by
    rw [← h, ← h', BitVec.and_assoc, BitVec.and_assoc, BitVec.and_comm r.mask]
  obtain ⟨hmask, hlit⟩ := hrows hcommon
  rw [hmask] at h
  rwa [(masked_FFFF w _).mp h]

/-! The words without a row (R80) -/

theorem decodeWord_unknown_iff : decodeWord w = .error (.unknownOpcode w) ↔ decodeDirect w = none := by
  rw [decodeWord]
  cases decodeDirect w <;> simp

theorem decodeGroup8_eq_none_iff :
    decodeGroup8 w = none ↔ nField w ∈ [0x8#4, 0x9#4, 0xA#4, 0xB#4, 0xC#4, 0xD#4, 0xF#4] := by
  have hsplit (n : Nibble) : n ∈ [0x8#4, 0x9#4, 0xA#4, 0xB#4, 0xC#4, 0xD#4, 0xF#4] ↔
      n ∉ [0x0#4, 0x1#4, 0x2#4, 0x3#4, 0x4#4, 0x5#4, 0x6#4, 0x7#4, 0xE#4] := by
    revert n
    decide
  rw [hsplit, decodeGroup8]
  split <;> simp_all

theorem decodeGroupE_eq_none_iff : decodeGroupE w = none ↔ kkField w ∉ [0x9E#8, 0xA1#8] := by
  rw [decodeGroupE]
  split <;> simp_all

theorem decodeGroupF_eq_none_iff : decodeGroupF w = none ↔
    kkField w ∉ [0x07#8, 0x0A#8, 0x15#8, 0x18#8, 0x1E#8, 0x29#8, 0x33#8, 0x55#8, 0x65#8] := by
  rw [decodeGroupF]
  split <;> simp_all

/-! The obligations -/

/-- Settles O1: the encoding of an instruction meets its row, and each row reads back the operands that its form
placed; for SYS well-formedness keeps the word off the two literals. -/
theorem decodeOfEncodeGivesBack : Obligations.DecodeOfEncodeGivesBack := by
  unfold Obligations.DecodeOfEncodeGivesBack
  intro i hwf
  cases i with
  | cls | ret => rfl
  | sys nnn => exact decodeWord_encode_sys hwf
  | jp nnn => exact decodeWord_formA decodesAs_jp rfl rfl nnn
  | call nnn => exact decodeWord_formA decodesAs_call rfl rfl nnn
  | seImm x kk => exact decodeWord_formXK decodesAs_seImm rfl rfl rfl x kk
  | sneImm x kk => exact decodeWord_formXK decodesAs_sneImm rfl rfl rfl x kk
  | seReg x y => exact decodeWord_formXY decodesAs_seReg rfl rfl rfl x y
  | ldImm x kk => exact decodeWord_formXK decodesAs_ldImm rfl rfl rfl x kk
  | addImm x kk => exact decodeWord_formXK decodesAs_addImm rfl rfl rfl x kk
  | ldReg x y => exact decodeWord_formXY decodesAs_ldReg rfl rfl rfl x y
  | orReg x y => exact decodeWord_formXY decodesAs_orReg rfl rfl rfl x y
  | andReg x y => exact decodeWord_formXY decodesAs_andReg rfl rfl rfl x y
  | xorReg x y => exact decodeWord_formXY decodesAs_xorReg rfl rfl rfl x y
  | addReg x y => exact decodeWord_formXY decodesAs_addReg rfl rfl rfl x y
  | sub x y => exact decodeWord_formXY decodesAs_sub rfl rfl rfl x y
  | shr x y => exact decodeWord_formXY decodesAs_shr rfl rfl rfl x y
  | subn x y => exact decodeWord_formXY decodesAs_subn rfl rfl rfl x y
  | shl x y => exact decodeWord_formXY decodesAs_shl rfl rfl rfl x y
  | sneReg x y => exact decodeWord_formXY decodesAs_sneReg rfl rfl rfl x y
  | ldI nnn => exact decodeWord_formA decodesAs_ldI rfl rfl nnn
  | jpV0 nnn => exact decodeWord_formA decodesAs_jpV0 rfl rfl nnn
  | rnd x kk => exact decodeWord_formXK decodesAs_rnd rfl rfl rfl x kk
  | drw x y n => exact decodeWord_formXYN decodesAs_drw rfl rfl rfl rfl x y n
  | skp x => exact decodeWord_formX decodesAs_skp rfl rfl x
  | sknp x => exact decodeWord_formX decodesAs_sknp rfl rfl x
  | ldVxDt x => exact decodeWord_formX decodesAs_ldVxDt rfl rfl x
  | ldVxK x => exact decodeWord_formX decodesAs_ldVxK rfl rfl x
  | ldDtVx x => exact decodeWord_formX decodesAs_ldDtVx rfl rfl x
  | ldStVx x => exact decodeWord_formX decodesAs_ldStVx rfl rfl x
  | addI x => exact decodeWord_formX decodesAs_addI rfl rfl x
  | ldF x => exact decodeWord_formX decodesAs_ldF rfl rfl x
  | ldB x => exact decodeWord_formX decodesAs_ldB rfl rfl x
  | ldStore x => exact decodeWord_formX decodesAs_ldStore rfl rfl x
  | ldLoad x => exact decodeWord_formX decodesAs_ldLoad rfl rfl x

/-- Settles O2: the encoder inverts every arm of the dispatch, and an ill-formed result would encode to a literal,
which decodes to CLS or RET. -/
theorem encodeOfDecodeGivesWord : Obligations.EncodeOfDecodeGivesWord := by
  unfold Obligations.EncodeOfDecodeGivesWord
  intro w i h
  have henc : encode i = w := encode_of_decodeWord h
  refine ⟨henc, ?_⟩
  by_contra hwf
  rw [← henc] at h
  rcases Instr.eq_sys_literal_of_not_wf hwf with rfl | rfl
  · cases h.symm.trans (decodesAs_cls 0x00E0#16 rfl)
  · cases h.symm.trans (decodesAs_ret 0x00EE#16 rfl)

/-- Settles O3: whichever row the scan finds, the dispatch gives its instruction, and a word that the dispatch decodes
has a row. The literals, on which two rows match, are evaluated. -/
theorem tableScanAgreesWithDispatch : Obligations.TableScanAgreesWithDispatch := by
  unfold Obligations.TableScanAgreesWithDispatch
  intro w
  by_cases hcls : w = 0x00E0#16
  · subst hcls; rfl
  by_cases hret : w = 0x00EE#16
  · subst hret; rfl
  rw [decodeScan]
  cases hfind : opcodeTable.find? (·.accepts w) with
  | none =>
    have hnone : ∀ i, decodeDirect w ≠ some i := fun i hi =>
      have ⟨r, hr, hacc⟩ := exists_row_of_decodeDirect hi
      List.find?_eq_none.mp hfind r hr hacc
    exact (Option.eq_none_iff_forall_ne_some.mpr hnone).symm
  | some r =>
    have hacc : r.accepts w = true := List.find?_some (p := (OpcodeRow.accepts · w)) hfind
    exact (decodeDirect_of_decodeWord (decodeWord_of_accepts hcls hret r (List.mem_of_find?_eq_some hfind)
      ((r.accepts_iff w).mp hacc))).symm

/-- Settles O4: the dispatch answers nothing exactly in the arms that test a second field, where that test fails. -/
theorem unknownWordsAreTheFiveSpaces : Obligations.UnknownWordsAreTheFiveSpaces := by
  unfold Obligations.UnknownWordsAreTheFiveSpaces
  intro w
  rw [decodeWord_unknown_iff, ← decodeGroup8_eq_none_iff, ← decodeGroupE_eq_none_iff, ← decodeGroupF_eq_none_iff]
  have hop := nibble_eq_F_or (opField w)
  simp only [List.mem_cons, List.not_mem_nil, or_false] at hop
  rcases hop with ho | ho | ho | ho | ho | ho | ho | ho | ho | ho | ho | ho | ho | ho | ho | ho <;>
    simp [decodeDirect, ho]

/-- Settles O5: two rows that both match a word agree on the bits that both fix, so of any two matching rows the first
is a literal. -/
theorem onlyTheTwoLiteralsOverlapSys : Obligations.OnlyTheTwoLiteralsOverlapSys := by
  unfold Obligations.OnlyTheTwoLiteralsOverlapSys
  refine ⟨fun w hcls hret => ?_, rfl, rfl⟩
  have hpairs := opcodeTable_pairwise.sublist (List.filter_sublist (p := (·.accepts w)))
  have hacc : ∀ r ∈ opcodeTable.filter (·.accepts w), r.accepts w = true := fun r hr => (List.mem_filter.mp hr).2
  rcases hrows : opcodeTable.filter (·.accepts w) with _ | ⟨r, _ | ⟨r', rest⟩⟩
  · rw [hrows]; exact Nat.zero_le 1
  · rw [hrows]; exact Nat.le_refl 1
  · rw [hrows] at hpairs hacc
    have hrr' := List.rel_of_pairwise_cons hpairs (List.mem_cons_self (a := r'))
    rcases eq_literal_of_accepts_both (hacc r List.mem_cons_self)
      (hacc r' (List.mem_cons_of_mem _ List.mem_cons_self)) hrr' with h | h
    · exact absurd h hcls
    · exact absurd h hret

/-- Settles O6: each word is evaluated. -/
theorem sampleWordsDecode : Obligations.SampleWordsDecode := by
  unfold Obligations.SampleWordsDecode
  exact ⟨rfl, rfl, rfl, rfl, rfl, rfl, rfl, rfl, rfl, rfl, rfl, rfl, rfl, rfl⟩

/-- Settles O16: a word of row 3 that is no literal reaches the last arm of its group, and SYS is the identity. -/
theorem sysDoesNothing : Obligations.SysDoesNothing := by
  unfold Obligations.SysDoesNothing
  exact ⟨fun w => decodeWord_sys, fun nnn s => ⟨s, rfl, rfl, fun _ => rfl⟩⟩

end Sys2Proof
end

section
/-! A word that stands at `PC` is what the next cycle runs, and the statements about a placed word, a jump to itself, a
call with its return and a run of ticks (spec/40_cycle.md, spec/41_control_flow.md). -/

namespace Sys2Proof.Machine

variable {s t : State}

/-! The word at `PC` -/

/-- Two bytes written at `PC` are the word there, the high one first (R50). -/
theorem State.wordAtPc_of_written {hi lo : Byte} (hp : t.params = s.params)
    (hm : t.mem = Memory.writeList s.params s.mem t.pc.toNat [hi, lo]) : t.wordAtPc = wordOfBytes hi lo := by
  have hbyte : ∀ a, t.byte a = (s.setMem (Memory.writeList s.params s.mem t.pc.toNat [hi, lo])).byte a :=
    State.byte_congr hp hm
  have hhi : t.byte t.pc.toNat = hi := (hbyte _).trans (s.byte_writeList_add _ [hi, lo] (j := 0) Nat.zero_lt_two)
  have hlo : t.byte (t.pc.toNat + 1) = lo := (hbyte _).trans (s.byte_writeList_add _ [hi, lo] (j := 1) Nat.one_lt_two)
  rw [State.wordAtPc, hhi, hlo, wordOfBytes]

/-- In a batch with budget left the word at `PC` is the instruction that runs (R100). -/
theorem step_of_decodes {i : Instr} (h : s.inBatch) (hpc : s.pc.toNat + 1 < memSize)
    (hd : decodeWord s.wordAtPc = .ok i) : step s = exec i s.atExecute :=
  (step_inBatch h).trans (State.cycle_of_decodes hpc hd)

/-! A placed word (log entry 11) -/

theorem tableWord_toNat (w : Word) : tableWord 16 w.toNat = w := by
  rw [tableWord, Nat.mod_eq_of_lt w.isLt, BitVec.ofNat_toNat, BitVec.setWidth_eq]

theorem State.placeAddr_lt (s : State) : s.placeAddr.toNat + 1 < memSize := by
  rw [State.placeAddr]
  split
  · assumption
  · decide

theorem State.wordAtPc_placeWord (s : State) (w : Word) : (s.placeWord w).wordAtPc = w :=
  (State.wordAtPc_of_written (s := s) (t := s.placeWord w) rfl rfl).trans (wordOfBytes_bytes w)

theorem State.inBatch_placeWord (h : s.params.wf) (w : Word) : (s.placeWord w).inBatch := by
  refine ⟨rfl, rfl, ?_⟩
  show (if s.slot < s.params.instrPerFrame then s.slot else 0) < s.params.instrPerFrame
  split
  · assumption
  · exact h

/-! The obligations -/

/-- Settles O8: placing writes the word at the new `PC`, inside memory, and puts the loop in a batch with budget
left. -/
theorem placedWordRunsNext : Obligations.PlacedWordRunsNext := by
  unfold Obligations.PlacedWordRunsNext
  intro s w i hwf hd
  rw [State.withFetchWord, tableWord_toNat]
  exact step_of_decodes (State.inBatch_placeWord hwf w) s.placeAddr_lt (by rw [State.wordAtPc_placeWord, hd])

/-- Settles O40: the block stored is V0 then V1 at I = `PC`, so the two bytes are the word at `PC`. -/
theorem storedWordIsFetchedNext : Obligations.StoredWordIsFetchedNext := by
  unfold Obligations.StoredWordIsFetchedNext
  intro s i h hI hpc hd
  have hin : s.iAddr + (1 : Nibble).toNat < memSize := by rw [State.iAddr, hI]; exact hpc
  have hmem : Memory.writeList s.params s.mem s.iAddr (s.regBlock 1) =
      Memory.writeList s.params s.mem s.pc.toNat [s.reg 0, s.reg 1] := by rw [State.iAddr, hI]; rfl
  have hword : decodeWord (wordOfBytes (s.reg 0) (s.reg 1)) = .ok i := (decode_pair_iff _ _ i).mp hd
  refine ⟨_, exec_ldStore_of_lt hin, step_of_decodes h hpc ?_⟩
  refine (congrArg decodeWord (State.wordAtPc_of_written (s := s) ?params ?mem)).trans hword
  case params => rfl
  case mem => exact hmem

/-- Settles O15: the jump undoes the advance of `PC`, and the cycle writes nothing else but `slot`. -/
theorem jumpToSelfIdles : Obligations.JumpToSelfIdles := by
  unfold Obligations.JumpToSelfIdles
  intro s nnn h hpc hself hd
  have htarget : zextAddr nnn = s.pc := BitVec.eq_of_toNat_eq ((toNat_zextAddr nnn).trans hself)
  rw [step_of_decodes h hpc hd, exec_jp, htarget]
  rfl

/-- Settles O23: RET pops the `PC` that CALL pushed, and the rest of the stack is the old one. -/
theorem callThenReturnRestores : Obligations.CallThenReturnRestores := by
  unfold Obligations.CallThenReturnRestores
  intro nnn s h
  exact ⟨_, exec_call_of_lt nnn h, toNat_zextAddr nnn, List.length_append, exec_ret_of_concat rfl⟩

/-- Settles O14: by induction on the number of ticks, each of which is a truncated decrement. -/
theorem ticksCountDownTheDelayTimer : Obligations.TicksCountDownTheDelayTimer := by
  unfold Obligations.TicksCountDownTheDelayTimer
  intro n
  induction n with
  | zero => exact fun _ => rfl
  | succ n ih =>
    intro s
    rw [Function.iterate_succ_apply, ih, State.tickTimers_dt, satDec_toNat]
    omega

end Sys2Proof.Machine
end

section
/-! What each instruction leaves when it does not fail, as one closed form, and which fields that form writes; from it
the statements about what an instruction fails on, writes and reads. -/

namespace Sys2Proof

open Machine

variable {s t : State} {i : Instr}

/-! The closed form -/

/-- The state an instruction leaves where R220 tables no failure for it (`exec_of_not_failsWith`). -/
def Instr.effect (i : Instr) (s : State) : State :=
  match i with
  | .cls => s.setDisplay Grid.clear
  | .ret => (s.setStack s.stack.dropLast).setPc (s.stack.getLast?.getD 0)
  | .sys _ => s
  | .jp nnn => s.setPc (zextAddr nnn)
  | .call nnn => (s.setStack (s.stack ++ [s.pc])).setPc (zextAddr nnn)
  | .seImm x kk => s.skip (s.reg x == kk)
  | .sneImm x kk => s.skip (s.reg x != kk)
  | .seReg x y => s.skip (s.reg x == s.reg y)
  | .ldImm x kk => s.setReg x kk
  | .addImm x kk => s.setReg x (s.reg x + kk)
  | .ldReg x y => s.setReg x (s.reg y)
  | .orReg x y => s.setLogic x (s.reg x ||| s.reg y)
  | .andReg x y => s.setLogic x (s.reg x &&& s.reg y)
  | .xorReg x y => s.setLogic x (s.reg x ^^^ s.reg y)
  | .addReg x y => s.setWithFlag x (s.reg x + s.reg y) (carryFlag (s.reg x) (s.reg y))
  | .sub x y => s.setWithFlag x (s.reg x - s.reg y) (notBorrowFlag (s.reg x) (s.reg y))
  | .shr x y => s.setWithFlag x (s.reg y >>> 1) (shrFlag (s.reg y))
  | .subn x y => s.setWithFlag x (s.reg y - s.reg x) (notBorrowFlag (s.reg y) (s.reg x))
  | .shl x y => s.setWithFlag x (s.reg y <<< 1) (shlFlag (s.reg y))
  | .sneReg x y => s.skip (s.reg x != s.reg y)
  | .ldI nnn => s.setI (zextAddr nnn)
  | .jpV0 nnn => s.setPc (BitVec.ofNat 16 (s.offsetTarget nnn))
  | .rnd x kk => s.drawRandom.2.setReg x (Config.randomByte s.rndDraws &&& kk)
  | .drw x y n =>
    (s.setDisplay (s.blitAt (s.anchorX x) (s.anchorY y) n.toNat).1).setReg vf
      (flagByte (s.blitAt (s.anchorX x) (s.anchorY y) n.toNat).2)
  | .skp x => s.skip (s.keyPressed (s.reg x))
  | .sknp x => s.skip (!s.keyPressed (s.reg x))
  | .ldVxDt x => s.setReg x s.dt
  | .ldVxK x => keyWaitWith (Config.keyRelease s.keyDraws) x s.drawKeyRelease.2
  | .ldDtVx x => s.setDt (s.reg x)
  | .ldStVx x => s.setSt (s.reg x)
  | .addI x => s.setI (s.iReg + (s.reg x).setWidth 16)
  | .ldF x => s.setI (s.glyphAddr x)
  | .ldB x => s.setMem (Memory.writeList s.params s.mem s.iAddr (bcdDigits (s.reg x)))
  | .ldStore x =>
    (s.setMem (Memory.writeList s.params s.mem s.iAddr (s.regBlock x))).setI (s.iPlus (blockLength x))
  | .ldLoad x => (s.setRegs 0 (s.bytesAt s.iAddr (blockLength x))).setI (s.iPlus (blockLength x))

/-! Completing and failing -/

/-- An instruction with one tabled condition that does not fail does not meet it (R220). -/
theorem not_of_failsWith_none {c : Prop} [Decidable c] {f : Failure} (hi : i.failsWith s = if c then some f else none)
    (h : i.failsWith s = none) : ¬c :=
  fun hc => absurd (h.symm.trans (hi.trans (if_pos hc))) nofun

/-- Where no failure is tabled an instruction completes with its effect (R104, R220). -/
theorem exec_of_not_failsWith (h : i.failsWith s = none) : exec i s = .next (i.effect s) := by
  cases i with
  | ret =>
    rcases s.pop_cases with ⟨w, rest, hs, -⟩ | ⟨hs, -⟩
    · rw [exec_ret_of_concat hs]
      simp [Instr.effect, hs]
    · exact absurd (h.symm.trans (if_pos hs)) nofun
  | jp nnn => exact exec_jp nnn s
  | call nnn => exact exec_call_of_lt nnn (Nat.lt_of_not_le (not_of_failsWith_none rfl h))
  | jpV0 nnn => exact exec_jpV0_of_lt (Nat.lt_of_not_le (not_of_failsWith_none rfl h))
  | drw x y n =>
    have hin : n.toNat = 0 ∨ s.iAddr + n.toNat - 1 < memSize := by
      rcases not_and_or.mp (not_of_failsWith_none rfl h) with h0 | hle
      · exact .inl (congrArg BitVec.toNat (not_not.mp h0))
      · exact .inr (Nat.lt_of_not_le hle)
    exact exec_drw_of_inside x y hin
  | ldB x => exact exec_ldB_of_lt x (Nat.lt_of_not_le (not_of_failsWith_none rfl h))
  | ldStore x => exact exec_ldStore_of_lt (Nat.lt_of_not_le (not_of_failsWith_none rfl h))
  | ldLoad x => exact exec_ldLoad_of_lt (Nat.lt_of_not_le (not_of_failsWith_none rfl h))
  | _ => rfl

/-- What an instruction that answers `t` did: it completed with its effect, or it raised its tabled failure. -/
theorem exec_cases (h : exec i s = .next t) :
    (i.failsWith s = none ∧ t = i.effect s) ∨ ∃ f, i.failsWith s = some f ∧ t = s.fail i f := by
  rcases exec_outcome i s with ⟨hnone, -⟩ | ⟨f, hf, he⟩
  · cases h.symm.trans (exec_of_not_failsWith hnone)
    exact .inl ⟨hnone, rfl⟩
  · cases h.symm.trans he
    exact .inr ⟨f, hf, rfl⟩

/-- Completing leaves the parameters, `run`, the log and the frame's own fields. -/
theorem Instr.effect_loopState (h : i.failsWith s = none) : (i.effect s).loopState = s.loopState := by
  rcases exec_outcome i s with ⟨-, t, ht, hl⟩ | ⟨f, hf, -⟩
  · cases (exec_of_not_failsWith h).symm.trans ht
    exact hl
  · exact absurd (h.symm.trans hf) nofun

/-! The fields a key wait leaves, whatever its answer (R197) -/

section
variable (k : Option Nibble) (x : Nibble) (s : State)

@[simp] theorem keyWaitWith_mem : (keyWaitWith k x s).mem = s.mem := by cases k <;> rfl
@[simp] theorem keyWaitWith_stack : (keyWaitWith k x s).stack = s.stack := by cases k <;> rfl
@[simp] theorem keyWaitWith_display : (keyWaitWith k x s).display = s.display := by cases k <;> rfl
@[simp] theorem keyWaitWith_iReg : (keyWaitWith k x s).iReg = s.iReg := by cases k <;> rfl
@[simp] theorem keyWaitWith_dt : (keyWaitWith k x s).dt = s.dt := by cases k <;> rfl
@[simp] theorem keyWaitWith_st : (keyWaitWith k x s).st = s.st := by cases k <;> rfl

end

/-! Which instructions write a field -/

theorem Instr.writer_of_effect_mem (h : (i.effect s).mem ≠ s.mem) : ∃ x, i = .ldB x ∨ i = .ldStore x := by
  cases i with
  | ldB x => exact ⟨x, .inl rfl⟩
  | ldStore x => exact ⟨x, .inr rfl⟩
  | _ => exact absurd (by simp [Instr.effect]) h

theorem Instr.writer_of_effect_stack (h : (i.effect s).stack ≠ s.stack) : i = .ret ∨ ∃ nnn, i = .call nnn := by
  cases i with
  | ret => exact .inl rfl
  | call nnn => exact .inr ⟨nnn, rfl⟩
  | _ => exact absurd (by simp [Instr.effect]) h

theorem Instr.writer_of_effect_display (h : (i.effect s).display ≠ s.display) :
    i = .cls ∨ ∃ x y n, i = .drw x y n := by
  cases i with
  | cls => exact .inl rfl
  | drw x y n => exact .inr ⟨x, y, n, rfl⟩
  | _ => exact absurd (by simp [Instr.effect]) h

theorem Instr.writer_of_effect_iReg (h : (i.effect s).iReg ≠ s.iReg) :
    (∃ nnn, i = .ldI nnn) ∨ ∃ x, i = .addI x ∨ i = .ldF x ∨ i = .ldStore x ∨ i = .ldLoad x := by
  cases i with
  | ldI nnn => exact .inl ⟨nnn, rfl⟩
  | addI x => exact .inr ⟨x, .inl rfl⟩
  | ldF x => exact .inr ⟨x, .inr (.inl rfl)⟩
  | ldStore x => exact .inr ⟨x, .inr (.inr (.inl rfl))⟩
  | ldLoad x => exact .inr ⟨x, .inr (.inr (.inr rfl))⟩
  | _ => exact absurd (by simp [Instr.effect]) h

theorem Instr.writer_of_effect_dt (h : (i.effect s).dt ≠ s.dt) : ∃ x, i = .ldDtVx x := by
  cases i with
  | ldDtVx x => exact ⟨x, rfl⟩
  | _ => exact absurd (by simp [Instr.effect]) h

theorem Instr.writer_of_effect_st (h : (i.effect s).st ≠ s.st) : ∃ x, i = .ldStVx x := by
  cases i with
  | ldStVx x => exact ⟨x, rfl⟩
  | _ => exact absurd (by simp [Instr.effect]) h

theorem Instr.writer_of_effect_pc (h : (i.effect s).pc ≠ s.pc) :
    i = .ret ∨ (∃ nnn, i = .jp nnn ∨ i = .call nnn ∨ i = .jpV0 nnn) ∨
      (∃ x kk, i = .seImm x kk ∨ i = .sneImm x kk) ∨ (∃ x y, i = .seReg x y ∨ i = .sneReg x y) ∨
      ∃ x, i = .skp x ∨ i = .sknp x ∨ i = .ldVxK x := by
  cases i with
  | ret | jp | call | jpV0 | seImm | sneImm | seReg | sneReg | skp | sknp | ldVxK => simp
  | _ => exact absurd (by simp [Instr.effect]) h

/-! Which failures an instruction has -/

/-- The instructions' four failures (R220): the other three are of the fetch, the decoder and the load. -/
theorem failsWith_cases {f : Failure} (h : i.failsWith s = some f) :
    f = .stackUnderflow ∨ f = .stackOverflow ∨ (∃ a, f = .addressOutOfRange a) ∨ ∃ a n, f = .memoryOutOfRange a n := by
  cases i with
  | ret | call | jpV0 | drw | ldB | ldStore | ldLoad =>
    obtain ⟨-, hf⟩ := Option.ite_none_right_eq_some.mp h
    cases hf
    simp
  | _ => cases h

/-- A failure of an instruction halts if it is fatal or HALT_ON_FAULT is set (R223, R224). -/
theorem halts_of_failsWith {f : Failure} (h : i.failsWith s = some f) (b : Bool) :
    f.halts b = (decide (f.cls = .fatal) || b) := by
  rcases failsWith_cases h with rfl | rfl | ⟨a, rfl⟩ | ⟨a, n, rfl⟩ <;> rfl

/-- The record of a failing instruction is well formed: it has its address and its word (R221). -/
theorem wf_of_failsWith {f : Failure} (h : i.failsWith s = some f) (pc0 w : Word) :
    FaultRecord.wf { failure := f, pc0 := some pc0, word := some w } = true := by
  rcases failsWith_cases h with rfl | rfl | ⟨a, rfl⟩ | ⟨a, n, rfl⟩ <;> rfl

end Sys2Proof
end

section
/-! The statements about what an instruction fails on, writes and reads, and about the log (spec/10_state.md,
spec/60_exceptions.md). -/

namespace Sys2Proof.Machine

variable {s t : State}

/-! The log across a step -/

/-- A cycle keeps the parameters and appends at most one record, well formed (R39, R221). -/
theorem State.cycle_log (h : s.cycle = .next t) : t.params = s.params ∧
    (t.faults = s.faults ∨ ∃ r, r.wf = true ∧ t.faults = s.faults ++ [r]) := by
  rcases s.cycle_cases with ⟨-, hc⟩ | ⟨-, e, -, hc⟩ | ⟨-, i, -, hc⟩
  · cases h.symm.trans hc
    exact ⟨rfl, .inr ⟨_, rfl, rfl⟩⟩
  · cases h.symm.trans hc
    exact ⟨rfl, .inr ⟨_, rfl, rfl⟩⟩
  · rcases exec_cases (hc.symm.trans h) with ⟨hf, rfl⟩ | ⟨f, hf, rfl⟩
    · have hl := Instr.effect_loopState hf
      exact ⟨congrArg LoopState.params hl, .inl (congrArg LoopState.faults hl)⟩
    · exact ⟨rfl, .inr ⟨_, wf_of_failsWith hf _ _, rfl⟩⟩

/-! The part of the state that no instruction reads (R43) -/

section
variable (s) (f : List FaultRecord) (k : Nat) (b : Byte) (r : RunState)

/-- Other values of the log, the slot count, ST and `run`. -/
def State.withUnobserved : State := { s with faults := f, slot := k, st := b, run := r }

theorem State.setLogic_withUnobserved (x : Nibble) (v : Byte) :
    (s.withUnobserved f k b r).setLogic x v = (s.setLogic x v).withUnobserved f k b r := by
  unfold State.setLogic
  split <;> rfl

theorem State.skip_withUnobserved (c : Bool) :
    (s.withUnobserved f k b r).skip c = (s.skip c).withUnobserved f k b r := by
  cases c <;> rfl

theorem State.setRegs_withUnobserved (n : Nat) (bs : List Byte) :
    (s.withUnobserved f k b r).setRegs n bs = (s.setRegs n bs).withUnobserved f k b r := by
  induction bs generalizing s n with
  | nil => rfl
  | cons v bs ih =>
    rw [State.setRegs, State.setRegs, ← ih]
    split <;> rfl

theorem keyWaitWith_withUnobserved (key : Option Nibble) (x : Nibble) :
    keyWaitWith key x (s.withUnobserved f k b r) = (keyWaitWith key x s).withUnobserved f k b r := by
  cases key <;> rfl

theorem failsWith_withUnobserved (i : Instr) : i.failsWith (s.withUnobserved f k b r) = i.failsWith s := by
  cases i <;> rfl

/-- ST after an instruction that started with the value `b` there and does not fail: LD ST, Vx alone writes it. -/
def stAfter (i : Instr) (s : State) (b : Byte) : Byte :=
  match i with
  | .ldStVx x => s.reg x
  | _ => b

theorem effect_withUnobserved (i : Instr) :
    i.effect (s.withUnobserved f k b r) = (i.effect s).withUnobserved f k (stAfter i s b) r := by
  cases i with
  | orReg | andReg | xorReg => exact State.setLogic_withUnobserved ..
  | seImm | sneImm | seReg | sneReg | skp | sknp => exact State.skip_withUnobserved ..
  | ldVxK x => exact keyWaitWith_withUnobserved s.drawKeyRelease.2 f k b r _ x
  | ldLoad x =>
    exact congrArg (State.setI · (s.iPlus (blockLength x))) (s.setRegs_withUnobserved f k b r 0 _)
  | _ => rfl

end

/-! The obligations -/

/-- Settles O48: a tabled failure is the record and the halt of its class, and completing leaves the log and `run`. -/
theorem instructionsFailExactlyWhereTabled : Obligations.InstructionsFailExactlyWhereTabled := by
  unfold Obligations.InstructionsFailExactlyWhereTabled
  refine fun i s => ⟨fun f hf => ?_, fun hf => ?_⟩
  · rw [exec_of_failsWith hf, halts_of_failsWith hf]
  · have hl := Instr.effect_loopState hf
    exact ⟨_, exec_of_not_failsWith hf, congrArg LoopState.faults hl, congrArg LoopState.run hl⟩

/-- Settles O49: of the five events only a cycle can write the log. -/
theorem logGrowsByAtMostOneRecord : Obligations.LogGrowsByAtMostOneRecord := by
  unfold Obligations.LogGrowsByAtMostOneRecord
  intro s t h
  obtain ⟨-, hev⟩ := step_cases h
  rcases hev with ⟨-, rfl⟩ | ⟨-, -, hc⟩ | ⟨-, -, rfl⟩ | ⟨-, rfl⟩ | ⟨-, rfl⟩
  · exact ⟨rfl, .inl rfl⟩
  · exact State.cycle_log hc
  · exact ⟨rfl, .inl rfl⟩
  · exact ⟨rfl, .inl rfl⟩
  · exact ⟨rfl, .inl rfl⟩

/-- Settles O52: a failure writes none of the three, and an effect that does is of a named instruction. -/
theorem memoryStackDisplayWriters : Obligations.MemoryStackDisplayWriters := by
  unfold Obligations.MemoryStackDisplayWriters
  intro i s t h
  rcases exec_cases h with ⟨-, rfl⟩ | ⟨f, -, rfl⟩
  · exact ⟨Instr.writer_of_effect_mem, Instr.writer_of_effect_stack, Instr.writer_of_effect_display⟩
  · exact ⟨fun hne => absurd rfl hne, fun hne => absurd rfl hne, fun hne => absurd rfl hne⟩

/-- Settles O53: as O52 for I, the timers and `PC`; the frame's fields are of the `loopState`, which no effect
writes. -/
theorem indexTimerPcWriters : Obligations.IndexTimerPcWriters := by
  unfold Obligations.IndexTimerPcWriters
  intro i s t h
  rcases exec_cases h with ⟨hf, rfl⟩ | ⟨f, -, rfl⟩
  · have hl := Instr.effect_loopState hf
    exact ⟨Instr.writer_of_effect_iReg, Instr.writer_of_effect_dt, Instr.writer_of_effect_st,
      Instr.writer_of_effect_pc, congrArg LoopState.kbdMask hl, congrArg LoopState.slot hl,
      congrArg LoopState.loop hl, congrArg LoopState.params hl, congrArg LoopState.pollDraws hl,
      congrArg LoopState.closeDraws hl, congrArg LoopState.beeps hl, congrArg LoopState.presents hl⟩
  · exact ⟨fun hne => absurd rfl hne, fun hne => absurd rfl hne, fun hne => absurd rfl hne,
      fun hne => absurd rfl hne, rfl, rfl, rfl, rfl, rfl, rfl, rfl, rfl⟩

/-- Settles O55: neither the failure table nor any effect reads the four fields, so both runs complete with one effect
or raise one failure. -/
theorem instructionsIgnoreUnobservedState : Obligations.InstructionsIgnoreUnobservedState := by
  unfold Obligations.InstructionsIgnoreUnobservedState
  intro i s t f k b r h
  have hfails := failsWith_withUnobserved s f k b r i
  rcases exec_cases h with ⟨hf, rfl⟩ | ⟨g, hf, rfl⟩
  · have hlog : (i.effect s).faults = s.faults := congrArg LoopState.faults (Instr.effect_loopState hf)
    refine ⟨fun _ => ?_, fun rec hrec => ?_⟩
    · have heffect := effect_withUnobserved s f k b r i
      refine (exec_of_not_failsWith (hfails.trans hf)).trans (congrArg _ (heffect.trans ?_))
      cases i <;> rfl
    · exact absurd (hlog.symm.trans hrec) (by simp)
  · refine ⟨fun hlog => absurd hlog (by simp), fun rec hrec => ?_⟩
    obtain rfl : _ = rec := List.singleton_inj.mp (List.append_cancel_left hrec)
    exact exec_of_failsWith (hfails.trans hf)

end Sys2Proof.Machine
end

section
/-! The invariant of a run: reset meets it and every step keeps it (spec/10_state.md, spec/20_memory.md,
spec/60_exceptions.md section 2). -/

namespace Sys2Proof.Machine

variable {s : State} {i : Instr}

/-! What keeps the invariant -/

/-- A failure keeps the invariant: its record is well formed and says why the engine may have halted (R221, R224). -/
theorem State.Inv.raise (h : s.Inv) {f : Failure} {pc0 : Word} {w : Option Word}
    (hr : FaultRecord.wf { failure := f, pc0 := some pc0, word := w } = true) : (s.raise f pc0 w).Inv where
  mem := h.mem
  depth := h.depth
  entries := h.entries
  pc := h.pc
  slot := h.slot
  log := by
    intro r hmem
    rcases List.mem_append.mp hmem with hold | hnew
    · exact h.log r hold
    · rw [List.mem_singleton.mp hnew]
      exact hr
  stuck := fun _ => List.append_ne_nil_of_right_ne_nil _ (List.cons_ne_nil _ _)

/-- A cycle is counted only while budget is left (R41, R106). -/
theorem State.Inv.countSlot (h : s.Inv) (hs : s.slot < s.params.instrPerFrame) : s.countSlot.Inv :=
  { h with slot := hs }

theorem State.Inv.setPc (h : s.Inv) {w : Word} (hw : w.toNat ≤ 0x1002) : (s.setPc w).Inv := { h with pc := hw }

/-! What an effect leaves of each bounded field -/

/-- The two stores write inside memory (R54, R56). -/
theorem wf_effect_mem (h : Memory.wf s.params s.mem = true) (hf : i.failsWith s = none) :
    Memory.wf s.params (i.effect s).mem = true := by
  by_cases hm : (i.effect s).mem = s.mem
  · rwa [hm]
  obtain ⟨x, rfl | rfl⟩ := Instr.writer_of_effect_mem hm
  · have hin : s.iAddr + 2 < memSize := Nat.lt_of_not_le (not_of_failsWith_none rfl hf)
    exact Memory.wf_writeList _ h hin
  · have hin : s.iAddr + x.toNat < memSize := Nat.lt_of_not_le (not_of_failsWith_none rfl hf)
    exact Memory.wf_writeList _ h (by rw [State.regBlock_length]; exact hin)

/-- A push goes below capacity (R28, R29). -/
theorem length_effect_stack (h : s.stack.length ≤ stackCap) (hf : i.failsWith s = none) :
    (i.effect s).stack.length ≤ stackCap := by
  by_cases hst : (i.effect s).stack = s.stack
  · rwa [hst]
  rcases Instr.writer_of_effect_stack hst with rfl | ⟨nnn, rfl⟩
  · have hpop : (Instr.ret.effect s).stack.length = s.stack.length - 1 := List.length_dropLast
    omega
  · have hpush : ((Instr.call nnn).effect s).stack.length = s.stack.length + 1 := List.length_append
    rw [hpush]
    exact Nat.lt_of_not_le (not_of_failsWith_none rfl hf)

/-- A call pushes the advanced `PC` (R26, R125). -/
theorem effect_entries (h : ∀ w ∈ s.stack, w.toNat ≤ 0x1000) (hpc : s.pc.toNat ≤ 0x1000) :
    ∀ w ∈ (i.effect s).stack, w.toNat ≤ 0x1000 := by
  by_cases hst : (i.effect s).stack = s.stack
  · rwa [hst]
  rcases Instr.writer_of_effect_stack hst with rfl | ⟨nnn, rfl⟩
  · exact fun w hw => h w (List.mem_of_mem_dropLast hw)
  · intro w hw
    rcases List.mem_append.mp hw with hold | hnew
    · exact h w hold
    · rwa [List.mem_singleton.mp hnew]

theorem toNat_zextAddr_lt (nnn : Addr12) : (zextAddr nnn).toNat < 0x1000 := by
  rw [toNat_zextAddr]
  exact nnn.isLt

/-- Adding 2 wraps at no `PC` of a run (R26). -/
theorem toNat_add_two {w : Word} (h : w.toNat ≤ 0x1000) : (w + 2).toNat = w.toNat + 2 :=
  (BitVec.toNat_add w 2).trans (Nat.mod_eq_of_lt (Nat.lt_of_le_of_lt (Nat.add_le_add_right h 2) (by decide)))

theorem toNat_skip_pc_le (c : Bool) (hpc : s.pc.toNat ≤ 0x1000) : (s.skip c).pc.toNat ≤ 0x1002 := by
  rw [State.skip_pc]
  split
  · rw [toNat_add_two hpc]
    exact Nat.add_le_add_right hpc 2
  · exact Nat.le_trans hpc (by decide)

/-- A key wait without an answer rewinds an advanced `PC` (R197). -/
theorem toNat_keyWaitWith_pc_le (k : Option Nibble) (x : Nibble) (hadv : 2 ≤ s.pc.toNat)
    (hpc : s.pc.toNat ≤ 0x1000) : (keyWaitWith k x s).pc.toNat ≤ 0x1002 := by
  cases k with
  | none =>
    have hback : (s.pc - 2).toNat = s.pc.toNat - 2 := BitVec.toNat_sub_of_le (BitVec.le_def.mpr hadv)
    rw [keyWaitWith, State.setPc_pc, hback]
    omega
  | some key => exact Nat.le_trans hpc (by decide)

theorem toNat_getLast_le {l : List Word} (h : ∀ w ∈ l, w.toNat ≤ 0x1000) : (l.getLast?.getD 0).toNat ≤ 0x1000 := by
  rcases List.eq_nil_or_concat l with rfl | ⟨rest, w, rfl⟩
  · exact Nat.zero_le _
  · simpa using h w (by simp)

/-- From an advanced `PC` of at most 0x1000, a skip leads to 0x1002 at most, a key wait back, and every other write of
`PC` into memory or to a pushed `PC` (R26). -/
theorem effect_pc_le (h : ∀ w ∈ s.stack, w.toNat ≤ 0x1000) (hadv : 2 ≤ s.pc.toNat) (hpc : s.pc.toNat ≤ 0x1000)
    (hf : i.failsWith s = none) : (i.effect s).pc.toNat ≤ 0x1002 := by
  by_cases hne : (i.effect s).pc = s.pc
  · rw [hne]
    omega
  cases i with
  | ret => exact Nat.le_trans (toNat_getLast_le h) (by decide)
  | jp nnn | call nnn => exact Nat.le_trans (Nat.le_of_lt (toNat_zextAddr_lt nnn)) (by decide)
  | jpV0 nnn =>
    have hin : s.offsetTarget nnn < memSize := Nat.lt_of_not_le (not_of_failsWith_none rfl hf)
    have hpc' : ((Instr.jpV0 nnn).effect s).pc.toNat ≤ s.offsetTarget nnn :=
      (BitVec.toNat_ofNat _ 16).trans_le (Nat.mod_le _ _)
    exact Nat.le_trans hpc' (Nat.le_trans (Nat.le_of_lt hin) (by decide))
  | seImm | sneImm | seReg | sneReg | skp | sknp => exact toNat_skip_pc_le _ hpc
  | ldVxK x => exact toNat_keyWaitWith_pc_le (s := s.drawKeyRelease.2) _ x hadv hpc
  | _ => exact absurd (by simp [Instr.effect]) hne

/-- An instruction that completes keeps the invariant: what its effect writes stays in bounds, and the slot, the log
and `run` are the old ones. -/
theorem State.Inv.effect (h : s.Inv) (hadv : 2 ≤ s.pc.toNat) (hpc : s.pc.toNat ≤ 0x1000)
    (hf : i.failsWith s = none) : (i.effect s).Inv := by
  have hl := Instr.effect_loopState hf
  have hparams : (i.effect s).params = s.params := congrArg LoopState.params hl
  have hslot : (i.effect s).slot = s.slot := congrArg LoopState.slot hl
  have hlog : (i.effect s).faults = s.faults := congrArg LoopState.faults hl
  have hrun : (i.effect s).run = s.run := congrArg LoopState.run hl
  exact {
    mem := by rw [hparams]; exact wf_effect_mem h.mem hf
    depth := length_effect_stack h.depth hf
    entries := effect_entries h.entries hpc
    pc := effect_pc_le h.entries hadv hpc hf
    slot := by rw [hslot, hparams]; exact h.slot
    log := by rw [hlog]; exact h.log
    stuck := by rw [hrun, hlog]; exact h.stuck }

/-! What keeps the invariant across a cycle -/

/-- A cycle keeps the invariant: it raises one failure or runs its effect, and after a fetch inside memory `PC` has been
advanced to at least 2 and at most 0x1000 (R26, R58). -/
theorem State.Inv.cycle {t : State} (h : s.Inv) (hs : s.slot < s.params.instrPerFrame) (hc : s.cycle = .next t) :
    t.Inv := by
  have hcounted := h.countSlot hs
  rcases s.cycle_cases with ⟨-, hc'⟩ | ⟨hin, e, -, hc'⟩ | ⟨hin, i, -, hc'⟩
  · cases hc.symm.trans hc'
    exact hcounted.raise rfl
  all_goals
    have hle : s.pc.toNat + 2 ≤ 0x1000 := hin
    have hpc : s.atExecute.pc.toNat = s.pc.toNat + 2 := toNat_add_two (Nat.le_of_add_right_le hle)
    have hready : s.atExecute.Inv := hcounted.setPc (hpc.trans_le (Nat.le_trans hle (by decide)))
  · cases hc.symm.trans hc'
    exact hready.raise rfl
  · rcases exec_cases (hc'.symm.trans hc) with ⟨hf, rfl⟩ | ⟨f, hf, rfl⟩
    · exact hready.effect (by omega) (by omega) hf
    · exact hready.raise (wf_of_failsWith hf _ _)

/-! The obligations -/

/-- Settles O50: the snapshot restarts the slot, a cycle counts one that was left and keeps every bound, and the other
three events write no field of the invariant. -/
theorem stepKeepsTheInvariant : Obligations.StepKeepsTheInvariant := by
  unfold Obligations.StepKeepsTheInvariant
  intro s t h hstep
  obtain ⟨-, hev⟩ := step_cases hstep
  rcases hev with ⟨-, rfl⟩ | ⟨-, hs, hc⟩ | ⟨-, -, rfl⟩ | ⟨-, rfl⟩ | ⟨-, rfl⟩
  · exact { h with slot := Nat.zero_le _ }
  · exact h.cycle hs hc
  · exact { h with }
  · exact { h with }
  · exact { h with }

/-- The base case of the invariant, at any parameters: nothing is listed, pushed or recorded (R42). -/
theorem State.inv_resetWith (p : Params) : (State.resetWith p).Inv where
  mem := Memory.wf_nil p
  depth := Nat.zero_le _
  entries := nofun
  pc := show (0x200#16 : Word).toNat ≤ 0x1002 by decide
  slot := Nat.zero_le _
  log := nofun
  stuck := nofun

/-- Settles O51: the reset state is the one at the default parameters. -/
theorem resetMeetsTheInvariant : Obligations.ResetMeetsTheInvariant := by
  unfold Obligations.ResetMeetsTheInvariant
  exact ⟨State.inv_resetWith Config.defaultParams, State.inv_resetWith⟩

end Sys2Proof.Machine
end
